-- ==== Sys2Proof/Word.lean ====
section
/-! DEFINITION. The word types of the Chip8Emu engine (spec/00_scope.md R5, R8): all values are unsigned. -/

namespace Sys2Proof

/-- Eight bits: a `V` register, a memory byte, `KK`, `SP`, a timer value. -/
abbrev Byte := BitVec 8

/-- Sixteen bits: an instruction word, `I`, `PC`, a return address. -/
abbrev Word := BitVec 16

/-- Twelve bits: the address immediate `NNN` (R71). -/
abbrev Addr12 := BitVec 12

/-- Four bits of an instruction word that no handler looks at (R75, R76). -/
abbrev Nibble := BitVec 4

/-- A register number 0 to 15 (R21, R72): every value names a register. -/
abbrev Reg := Fin 16

/-- A key number 0x0 to 0xF (R5, R200). -/
abbrev Key := Fin 16

end Sys2Proof
end

