-- ==== Sys2Proof/Syntax.lean ====
section
/-! DEFINITION. The 35 instructions of spec/30_encoding.md R74, one constructor per row of spec/opcode_table.json.
A constructor carries the row's fields and, where the decoder ignores bits of the word (R75 to R77), those bits
as well, last: an instruction term then says exactly one word (log 14). -/

namespace Sys2Proof

/-- One instruction (R74). -/
inductive Instr where
  /-- `0nnn` (R111). -/
  | sys (nnn : Addr12)
  /-- `0?E0` (R165); the nibble `?` is ignored. -/
  | cls (ignored : Nibble)
  /-- `0?EE` (R112); the nibble `?` is ignored. -/
  | ret (ignored : Nibble)
  /-- `1nnn` (R113). -/
  | jp (nnn : Addr12)
  /-- `2nnn` (R114). -/
  | call (nnn : Addr12)
  /-- `3xkk` (R115). -/
  | seKk (x : Reg) (kk : Byte)
  /-- `4xkk` (R116). -/
  | sneKk (x : Reg) (kk : Byte)
  /-- `5xy?` (R117); the nibble `?` is ignored. -/
  | seVy (x y : Reg) (ignored : Nibble)
  /-- `6xkk` (R131). -/
  | ldKk (x : Reg) (kk : Byte)
  /-- `7xkk` (R132). -/
  | addKk (x : Reg) (kk : Byte)
  /-- `8xy0` (R133). -/
  | ldVy (x y : Reg)
  /-- `8xy1` (R134). -/
  | or (x y : Reg)
  /-- `8xy2` (R135). -/
  | and (x y : Reg)
  /-- `8xy3` (R136). -/
  | xor (x y : Reg)
  /-- `8xy4` (R137). -/
  | add (x y : Reg)
  /-- `8xy5` (R138). -/
  | sub (x y : Reg)
  /-- `8xy6` (R139); the handler ignores `y`. -/
  | shr (x y : Reg)
  /-- `8xy7` (R140). -/
  | subn (x y : Reg)
  /-- `8xyE` (R141); the handler ignores `y`. -/
  | shl (x y : Reg)
  /-- `9xy?` (R118); the nibble `?` is ignored. -/
  | sneVy (x y : Reg) (ignored : Nibble)
  /-- `Annn` (R151). -/
  | ldi (nnn : Addr12)
  /-- `Bnnn` (R119). -/
  | jpv0 (nnn : Addr12)
  /-- `Cxkk` (R142). -/
  | rnd (x : Reg) (kk : Byte)
  /-- `Dxyn` (R166); `n` is a row count 0 to 15. -/
  | drw (x y : Reg) (n : Fin 16)
  /-- `Ex9E` (R171). -/
  | skp (x : Reg)
  /-- `Exkk` with `kk` other than `9E` (R172); the byte `kk` is ignored. -/
  | sknp (x : Reg) (ignored : Byte)
  /-- `Fx07` (R173). -/
  | ldvdt (x : Reg)
  /-- `Fx0A` (R174). -/
  | ldk (x : Reg)
  /-- `Fx15` (R175). -/
  | lddt (x : Reg)
  /-- `Fx18` (R176). -/
  | ldst (x : Reg)
  /-- `Fx1E` (R152). -/
  | addi (x : Reg)
  /-- `Fx29` (R153). -/
  | ldf (x : Reg)
  /-- `Fx33` (R154). -/
  | ldbcd (x : Reg)
  /-- `Fx55` (R155). -/
  | ldrw (x : Reg)
  /-- `Fx65` (R156). -/
  | ldrs (x : Reg)
  deriving DecidableEq, Repr

/-- Why the decoder gives no instruction. -/
inductive DecodeError where
  /-- The word resolves to no dispatch index (R73, R181). -/
  | unrecognizedInstruction (w : Word)
  /-- Fewer than the two bytes of one instruction were given (R70). -/
  | truncated (given : Nat)
  deriving DecidableEq, Repr

end Sys2Proof
end

