-- ==== Sys2Proof/WellFormed.lean ====
section
/-! DEFINITION. Which instruction terms stand for a word of their own row: spec/30_encoding.md R74 gives CLS, RET and
SKP priority over SYS and SKNP, so a SYS or SKNP term may not hold the bits of those rows. -/

namespace Sys2Proof

/-- The low byte of a SYS word is neither `E0` (CLS) nor `EE` (RET) (R75). -/
def sysFieldOk (nnn : Addr12) : Bool :=
  nnn.toNat % 256 != 0xE0 && nnn.toNat % 256 != 0xEE

/-- The low byte of a SKNP word is not `9E` (SKP) (R77). -/
def sknpFieldOk (kk : Byte) : Bool := kk != 0x9E

/-- The term is the reading of exactly one word. -/
def Instr.wf : Instr → Bool
  | .sys nnn     => sysFieldOk nnn
  | .cls _       => true
  | .ret _       => true
  | .jp _        => true
  | .call _      => true
  | .seKk _ _    => true
  | .sneKk _ _   => true
  | .seVy _ _ _  => true
  | .ldKk _ _    => true
  | .addKk _ _   => true
  | .ldVy _ _    => true
  | .or _ _      => true
  | .and _ _     => true
  | .xor _ _     => true
  | .add _ _     => true
  | .sub _ _     => true
  | .shr _ _     => true
  | .subn _ _    => true
  | .shl _ _     => true
  | .sneVy _ _ _ => true
  | .ldi _       => true
  | .jpv0 _      => true
  | .rnd _ _     => true
  | .drw _ _ _   => true
  | .skp _       => true
  | .sknp _ kk   => sknpFieldOk kk
  | .ldvdt _     => true
  | .ldk _       => true
  | .lddt _      => true
  | .ldst _      => true
  | .addi _      => true
  | .ldf _       => true
  | .ldbcd _     => true
  | .ldrw _      => true
  | .ldrs _      => true

end Sys2Proof
end

