-- ==== Sys2Proof/Decode.lean ====
section
/-! DEFINITION. The decoder (spec/30_encoding.md R70 to R80), total on any bytes, and after it the encoder, written
from the encoding column of R74. -/

namespace Sys2Proof

/-- `w[hi:lo]` of R8: the field read as an unsigned number. -/
def bits (w : Word) (hi lo : Nat) : Nat := w.toNat / 2 ^ lo % 2 ^ (hi + 1 - lo)

/-! The fields of R71. -/

/-- `Op1`: the primary class. -/
def op1 (w : Word) : Nat := bits w 15 12

/-- `Op2`: the secondary nibble of class 8. -/
def op2 (w : Word) : Nat := bits w 3 0

/-- `Op3`: the secondary byte of classes 0, E and F. -/
def op3 (w : Word) : Nat := bits w 7 0

/-- `X`. -/
def fieldX (w : Word) : Reg := Fin.ofNat 16 (bits w 11 8)

/-- `Y`. -/
def fieldY (w : Word) : Reg := Fin.ofNat 16 (bits w 7 4)

/-- `N`. -/
def fieldN (w : Word) : Fin 16 := Fin.ofNat 16 (bits w 3 0)

/-- `KK`. -/
def fieldKK (w : Word) : Byte := BitVec.ofNat 8 (bits w 7 0)

/-- `NNN`. -/
def fieldNNN (w : Word) : Addr12 := BitVec.ofNat 12 (bits w 11 0)

/-- Bits 11 to 8, kept where the decoder ignores them (R75). -/
def ignoredHigh (w : Word) : Nibble := BitVec.ofNat 4 (bits w 11 8)

/-- Bits 3 to 0, kept where the decoder ignores them (R76). -/
def ignoredLow (w : Word) : Nibble := BitVec.ofNat 4 (bits w 3 0)

/-! `ResolveIndex` of R73, in its priority order, each dispatch index taken to its instruction. -/

/-- Class 0, decoded on `Op3` alone (R75). -/
def decodeClass0 (w : Word) : Instr :=
  if op3 w = 0xE0 then .cls (ignoredHigh w)
  else if op3 w = 0xEE then .ret (ignoredHigh w)
  else .sys (fieldNNN w)

/-- Class 8: nine secondary nibbles, and a fault for the seven others (R79). -/
def decodeClass8 (w : Word) : Except DecodeError Instr :=
  match op2 w with
  | 0x0 => .ok (.ldVy (fieldX w) (fieldY w))
  | 0x1 => .ok (.or (fieldX w) (fieldY w))
  | 0x2 => .ok (.and (fieldX w) (fieldY w))
  | 0x3 => .ok (.xor (fieldX w) (fieldY w))
  | 0x4 => .ok (.add (fieldX w) (fieldY w))
  | 0x5 => .ok (.sub (fieldX w) (fieldY w))
  | 0x6 => .ok (.shr (fieldX w) (fieldY w))
  | 0x7 => .ok (.subn (fieldX w) (fieldY w))
  | 0xE => .ok (.shl (fieldX w) (fieldY w))
  | _   => .error (.unrecognizedInstruction w)

/-- Class E: `9E` is SKP, every other low byte SKNP (R77). -/
def decodeClassE (w : Word) : Instr :=
  if op3 w = 0x9E then .skp (fieldX w) else .sknp (fieldX w) (fieldKK w)

/-- Class F: nine secondary bytes, and a fault for every other (R78). -/
def decodeClassF (w : Word) : Except DecodeError Instr :=
  match op3 w with
  | 0x07 => .ok (.ldvdt (fieldX w))
  | 0x0A => .ok (.ldk (fieldX w))
  | 0x15 => .ok (.lddt (fieldX w))
  | 0x18 => .ok (.ldst (fieldX w))
  | 0x1E => .ok (.addi (fieldX w))
  | 0x29 => .ok (.ldf (fieldX w))
  | 0x33 => .ok (.ldbcd (fieldX w))
  | 0x55 => .ok (.ldrw (fieldX w))
  | 0x65 => .ok (.ldrs (fieldX w))
  | _    => .error (.unrecognizedInstruction w)

/-- The instruction a 16-bit word is, or the unrecognised-instruction error (R73). -/
def decodeWord (w : Word) : Except DecodeError Instr :=
  match op1 w with
  | 0x0 => .ok (decodeClass0 w)
  | 0x1 => .ok (.jp (fieldNNN w))
  | 0x2 => .ok (.call (fieldNNN w))
  | 0x3 => .ok (.seKk (fieldX w) (fieldKK w))
  | 0x4 => .ok (.sneKk (fieldX w) (fieldKK w))
  | 0x5 => .ok (.seVy (fieldX w) (fieldY w) (ignoredLow w))
  | 0x6 => .ok (.ldKk (fieldX w) (fieldKK w))
  | 0x7 => .ok (.addKk (fieldX w) (fieldKK w))
  | 0x8 => decodeClass8 w
  | 0x9 => .ok (.sneVy (fieldX w) (fieldY w) (ignoredLow w))
  | 0xA => .ok (.ldi (fieldNNN w))
  | 0xB => .ok (.jpv0 (fieldNNN w))
  | 0xC => .ok (.rnd (fieldX w) (fieldKK w))
  | 0xD => .ok (.drw (fieldX w) (fieldY w) (fieldN w))
  | 0xE => .ok (decodeClassE w)
  | _   => decodeClassF w

/-! Byte order: the high byte stands at the lower address (R55). -/

/-- The word of a high and a low byte. -/
def joinBytes (hi lo : Byte) : Word := BitVec.ofNat 16 (hi.toNat * 256 + lo.toNat)

/-- Bits 15 to 8 of a word. -/
def highByte (w : Word) : Byte := BitVec.ofNat 8 (bits w 15 8)

/-- Bits 7 to 0 of a word. -/
def lowByte (w : Word) : Byte := BitVec.ofNat 8 (bits w 7 0)

/-- The first instruction of a list of bytes in memory order, with the bytes after it. -/
def decodeBytes : List Byte → Except DecodeError (Instr × List Byte)
  | []              => .error (.truncated 0)
  | [_]             => .error (.truncated 1)
  | hi :: lo :: rest =>
    match decodeWord (joinBytes hi lo) with
    | .ok i    => .ok (i, rest)
    | .error e => .error e

/-- The bytes of a word in memory order. -/
def wordBytes (w : Word) : List Byte := [highByte w, lowByte w]

/-- The word the table's bits `w`, `nbits` of them, stand for; bits above `nbits` are zero. -/
def tableWord (nbits w : Nat) : Word := BitVec.ofNat 16 (w % 2 ^ nbits)

/-- The decoder's reading of an instruction given as a number whose bit 0 is the word's least significant bit. -/
def decodeTableWord (nbits w : Nat) : Option Instr :=
  match decodeBytes (wordBytes (tableWord nbits w)) with
  | .ok (i, _) => some i
  | .error _   => none

/-! The encoder: the encoding column of R74. -/

/-- `pnnn`: a class and a 12-bit immediate. -/
def encodeNNN (cls : Nat) (nnn : Addr12) : Word := BitVec.ofNat 16 (cls * 4096 + nnn.toNat)

/-- `pxkk`: a class, a register and a byte. -/
def encodeXKK (cls : Nat) (x : Reg) (kk : Nat) : Word := BitVec.ofNat 16 (cls * 4096 + x.val * 256 + kk)

/-- `pxyn`: a class, two registers and a nibble. -/
def encodeXYN (cls : Nat) (x y : Reg) (n : Nat) : Word :=
  BitVec.ofNat 16 (cls * 4096 + x.val * 256 + y.val * 16 + n)

/-- `0?bb`: class 0, an ignored nibble and a secondary byte. -/
def encodeClass0 (ignored : Nibble) (b : Nat) : Word := BitVec.ofNat 16 (ignored.toNat * 256 + b)

/-- The one word of an instruction. -/
def encode : Instr → Word
  | .sys nnn     => encodeNNN 0x0 nnn
  | .cls n       => encodeClass0 n 0xE0
  | .ret n       => encodeClass0 n 0xEE
  | .jp nnn      => encodeNNN 0x1 nnn
  | .call nnn    => encodeNNN 0x2 nnn
  | .seKk x kk   => encodeXKK 0x3 x kk.toNat
  | .sneKk x kk  => encodeXKK 0x4 x kk.toNat
  | .seVy x y n  => encodeXYN 0x5 x y n.toNat
  | .ldKk x kk   => encodeXKK 0x6 x kk.toNat
  | .addKk x kk  => encodeXKK 0x7 x kk.toNat
  | .ldVy x y    => encodeXYN 0x8 x y 0x0
  | .or x y      => encodeXYN 0x8 x y 0x1
  | .and x y     => encodeXYN 0x8 x y 0x2
  | .xor x y     => encodeXYN 0x8 x y 0x3
  | .add x y     => encodeXYN 0x8 x y 0x4
  | .sub x y     => encodeXYN 0x8 x y 0x5
  | .shr x y     => encodeXYN 0x8 x y 0x6
  | .subn x y    => encodeXYN 0x8 x y 0x7
  | .shl x y     => encodeXYN 0x8 x y 0xE
  | .sneVy x y n => encodeXYN 0x9 x y n.toNat
  | .ldi nnn     => encodeNNN 0xA nnn
  | .jpv0 nnn    => encodeNNN 0xB nnn
  | .rnd x kk    => encodeXKK 0xC x kk.toNat
  | .drw x y n   => encodeXYN 0xD x y n.val
  | .skp x       => encodeXKK 0xE x 0x9E
  | .sknp x kk   => encodeXKK 0xE x kk.toNat
  | .ldvdt x     => encodeXKK 0xF x 0x07
  | .ldk x       => encodeXKK 0xF x 0x0A
  | .lddt x      => encodeXKK 0xF x 0x15
  | .ldst x      => encodeXKK 0xF x 0x18
  | .addi x      => encodeXKK 0xF x 0x1E
  | .ldf x       => encodeXKK 0xF x 0x29
  | .ldbcd x     => encodeXKK 0xF x 0x33
  | .ldrw x      => encodeXKK 0xF x 0x55
  | .ldrs x      => encodeXKK 0xF x 0x65

/-- The dispatch index of R74. -/
def dispatchIndex : Instr → Nat
  | .sys _       => 0
  | .cls _       => 1
  | .ret _       => 2
  | .jp _        => 3
  | .call _      => 4
  | .seKk _ _    => 5
  | .sneKk _ _   => 6
  | .seVy _ _ _  => 7
  | .ldKk _ _    => 8
  | .addKk _ _   => 9
  | .ldVy _ _    => 10
  | .or _ _      => 11
  | .and _ _     => 12
  | .xor _ _     => 13
  | .add _ _     => 14
  | .sub _ _     => 15
  | .shr _ _     => 16
  | .subn _ _    => 17
  | .shl _ _     => 18
  | .sneVy _ _ _ => 19
  | .ldi _       => 20
  | .jpv0 _      => 21
  | .rnd _ _     => 22
  | .drw _ _ _   => 23
  | .skp _       => 24
  | .sknp _ _    => 25
  | .ldvdt _     => 26
  | .ldk _       => 27
  | .lddt _      => 28
  | .ldst _      => 29
  | .addi _      => 30
  | .ldf _       => 31
  | .ldbcd _     => 32
  | .ldrw _      => 33
  | .ldrs _      => 34

/-! The match and mask columns of R74: the same map said a second time, for the statement that the two agree. -/

/-- Rows (index, match, mask) in the table's priority order: CLS, RET and SKP before SYS and SKNP. -/
def opcodeRows : List (Nat × Word × Word) :=
  [(1, 0x00E0, 0xF0FF), (2, 0x00EE, 0xF0FF), (0, 0x0000, 0xF000),
   (3, 0x1000, 0xF000), (4, 0x2000, 0xF000), (5, 0x3000, 0xF000), (6, 0x4000, 0xF000),
   (7, 0x5000, 0xF000), (8, 0x6000, 0xF000), (9, 0x7000, 0xF000)] ++
  [(10, 0x8000, 0xF00F), (11, 0x8001, 0xF00F), (12, 0x8002, 0xF00F), (13, 0x8003, 0xF00F),
   (14, 0x8004, 0xF00F), (15, 0x8005, 0xF00F), (16, 0x8006, 0xF00F), (17, 0x8007, 0xF00F),
   (18, 0x800E, 0xF00F)] ++
  [(19, 0x9000, 0xF000), (20, 0xA000, 0xF000), (21, 0xB000, 0xF000), (22, 0xC000, 0xF000),
   (23, 0xD000, 0xF000), (24, 0xE09E, 0xF0FF), (25, 0xE000, 0xF000)] ++
  [(26, 0xF007, 0xF0FF), (27, 0xF00A, 0xF0FF), (28, 0xF015, 0xF0FF), (29, 0xF018, 0xF0FF),
   (30, 0xF01E, 0xF0FF), (31, 0xF029, 0xF0FF), (32, 0xF033, 0xF0FF), (33, 0xF055, 0xF0FF),
   (34, 0xF065, 0xF0FF)]

/-- The index of the first row whose masked bits match the word. -/
def tableIndex (w : Word) : Option Nat :=
  (opcodeRows.find? fun row => w &&& row.2.2 == row.2.1).map (·.1)

end Sys2Proof
end

