-- ==== Sys2Proof/Config.lean ====
section
/-! DEFINITION. What one machine fixes (the parameters of spec/00_scope.md R5) and what the spec leaves free:
the environment's answers (R36, R200 to R203) and the number `INTERVAL`. -/

namespace Sys2Proof

/-- `STACK_POLICY` (R5, R182, R183): what a stack-bounds violation does. -/
inductive StackPolicy where
  /-- The violation is a fatal fault: the spec's default. -/
  | strict
  /-- The violating instruction is a no-op that advances `PC`. -/
  | permissive
  deriving DecidableEq, Repr

/-- `ADDR_POLICY` (R5, R53): what an access at `0x1000` or above does. -/
inductive AddrPolicy where
  /-- The access raises `AddressFault`: the spec's default. -/
  | fault
  /-- The access is made at the address modulo 4096. -/
  | wrap12
  deriving DecidableEq, Repr

/-- The parameters of R5 on which a rule depends. The model carries them in the state, and no step writes them
(DESIGN CHOICE, log 4), so that a statement about every state is one about every machine. -/
structure Params where
  stackPolicy : StackPolicy
  addrPolicy  : AddrPolicy
  /-- `INTERVAL`: clock ticks in one sixtieth of a second, a positive integer. -/
  interval    : Nat
  deriving DecidableEq, Repr

/-- The environment's answers for one step (R36): each is a free input, not a function of the machine's state.
`key_down` is asked at most once in a cycle (R172), so one Boolean answers for all key numbers of 16 or more. -/
structure Inputs where
  /-- The level of the `PAUSE` input at the top of the cycle (R98). -/
  pause     : Bool
  /-- `env.rnd()` (R202). -/
  rnd       : Byte
  /-- `env.key_down(k)` for the keys 0 to 15 (R200). -/
  keysDown  : Vector Bool 16
  /-- `env.key_down(k)` for `k` of 16 or more: a free Boolean (R200). -/
  keyBeyond : Bool
  /-- `env.key_event()` (R201): the key that has just gone down, or none yet. -/
  keyEvent  : Option Key
  /-- `env.elapsed()` (R203): clock ticks of the cycle that completes with this step. -/
  elapsed   : Nat
  deriving DecidableEq, Repr

namespace Config

/-! The free values. None has a body, so nothing can be proved of which value it is; `n` numbers the step (log 6). -/

/-- The free level of the `PAUSE` input. -/
opaque freePause : Nat → Bool

/-- The free random byte. -/
opaque freeRnd : Nat → Byte

/-- The free state of the sixteen keys. -/
opaque freeKeysDown : Nat → Vector Bool 16

/-- The free answer for a key number of 16 or more. -/
opaque freeKeyBeyond : Nat → Bool

/-- The free key event. -/
opaque freeKeyEvent : Nat → Option Key

/-- The free number of elapsed clock ticks. -/
opaque freeElapsed : Nat → Nat

/-- One less than the machine's `INTERVAL`, which R5 leaves open but for being positive (log 5). -/
opaque freeIntervalPred : Nat

end Config

/-- The environment's free answers for step number `n`. -/
def Inputs.free (n : Nat) : Inputs where
  pause     := Config.freePause n
  rnd       := Config.freeRnd n
  keysDown  := Config.freeKeysDown n
  keyBeyond := Config.freeKeyBeyond n
  keyEvent  := Config.freeKeyEvent n
  elapsed   := Config.freeElapsed n

/-- The answers that `State.withFetchWord` lays down where none is known: `PAUSE` low, so that the next step
fetches, and a key event, so that LDK completes; the rest zero (log 13). -/
def Inputs.quiet : Inputs where
  pause     := false
  rnd       := 0
  keysDown  := Vector.replicate 16 false
  keyBeyond := false
  keyEvent  := some 0
  elapsed   := 0

/-- The parameters `State.reset` has: the spec's two defaults (R5) and an uninterpreted positive `INTERVAL`. -/
def Params.default : Params where
  stackPolicy := .strict
  addrPolicy  := .fault
  interval    := Config.freeIntervalPred + 1

/-- `LOAD_ADDR` (R5): where programs load and where `PC` starts. -/
def loadAddr : Word := 0x200

/-- `MEM_SIZE` (R5). -/
def memSize : Nat := 4096

end Sys2Proof
end

