-- ==== Sys2Proof/Machine/State.lean ====
section
/-! DEFINITION. The state of the engine (spec/10_state.md R20 to R38), the reasons a step of the model could stop,
and the state after reset. Everything here is plain data. -/

namespace Sys2Proof.Machine

/-- Main memory (R34, R50): the written bytes that differ from the reset contents, by strictly rising address. -/
abbrev Memory := List Host.Cell

/-- The framebuffer (R35, R160): 32 rows of 64 pixels, row 0 at the top, column 0 at the left. -/
abbrev FrameBuffer := Vector (Vector Bool 64) 32

/-- One of the two timers (R190): `Value`, and the clock ticks left until its next decrement, which can be
negative (R30). -/
structure Timer where
  value     : Byte
  remaining : Int
  deriving DecidableEq, Repr

/-- The four faults of R180. -/
inductive FaultCode where
  /-- Raised at decode when the fetched word resolves to no dispatch index (R181). -/
  | unrecognizedInstruction
  /-- Raised by CALL on a full stack, strict policy only (R182). -/
  | stackOverflow
  /-- Raised by RET on an empty stack, strict policy only (R183). -/
  | stackUnderflow
  /-- Raised by fetch, DRW, LDBCD, LDRW and LDRS on an address of `0x1000` or more, fault policy only (R184). -/
  | addressFault
  deriving DecidableEq, Repr

/-- The fault record of R186. -/
structure FaultRecord where
  code : FaultCode
  /-- The address of the faulting instruction. -/
  pc   : Word
  /-- The instruction word, absent when the fetch itself faulted. -/
  word : Option Word
  /-- The first out-of-range address, for `AddressFault` only. -/
  addr : Option Word
  deriving DecidableEq, Repr

/-- The two timers. -/
inductive TimerId where
  | dt
  | st
  deriving DecidableEq, Repr

/-- The output pulses and timer notifications of a cycle (R97, R193, R199). -/
inductive Event where
  | frameStart
  | frameDone
  /-- A decrement of the timer. -/
  | elapsed (timer : TimerId)
  /-- A decrement brought the timer to zero. -/
  | stopped (timer : TimerId)
  | beepStart
  | beepEnd
  deriving DecidableEq, Repr

/-- The state: the engine's tuple of R20, then the model's own fields. -/
structure State where
  /-- `V[0..15]` (R21). -/
  v     : Vector Byte 16
  /-- `I` (R23). -/
  i     : Word
  /-- `PC` (R24). -/
  pc    : Word
  /-- `SP`: how many return addresses are pending (R26). -/
  sp    : Byte
  /-- `STACK[0..15]` (R27). -/
  stack : Vector Word 16
  /-- The delay timer (R29, R30). -/
  dt    : Timer
  /-- The sound timer (R29, R30). -/
  st    : Timer
  /-- `PAUSED` (R32). -/
  paused : Bool
  /-- `BEEP` (R31). -/
  beep  : Bool
  /-- `HALT` (R33). -/
  halt  : Option FaultRecord
  /-- `MEM` (R34). -/
  mem   : Memory
  /-- `FB` (R35). -/
  fb    : FrameBuffer
  /-- The machine's parameters, which no step writes (log 4). -/
  params : Params
  /-- LDK's cycle is under way and no key event has come yet (log 8). -/
  waiting : Bool
  /-- The environment's answers already known, one for each coming step (log 6). -/
  inputs : List Inputs
  /-- How many answers have been taken; it numbers the free ones (log 6). -/
  inputIndex : Nat
  /-- Output pulses and notifications so far, newest first (log 12). -/
  trace : List Event
  deriving DecidableEq, Repr

/-- Reasons a step could stop with a fault. There is none: every fault of the spec is fatal to the PROGRAM but
is a next state of the engine, with the record in `HALT` (R185, R90; log 10). -/
inductive Fault where
  deriving DecidableEq, Repr

/-- Reasons the model could give an instruction no meaning. -/
inductive Refusal where
  /-- Raised by no arm of `exec`: every instruction of the table has its meaning. It would be safe: a run stops. -/
  | notModelled (mnemonic : String)
  deriving DecidableEq, Repr

/-- What a step answers. -/
abbrev Result := Host.Outcome State Fault Refusal

/-- Every pixel unset. -/
def FrameBuffer.clear : FrameBuffer := Vector.replicate 32 (Vector.replicate 64 false)

/-- The state after reset (R38, R210, R211) for any parameters and any value of what the spec leaves unspecified:
`RESET_V`, `RESET_I`, `RESET_STACK` and, as the cells that differ from `resetByte`, `RESET_MEM`. -/
def State.resetWith (params : Params) (v : Vector Byte 16) (i : Word) (stack : Vector Word 16) (mem : Memory) :
    State where
  v       := v
  i       := i
  pc      := loadAddr
  sp      := 0
  stack   := stack
  dt      := ⟨0, 0⟩
  st      := ⟨0, 0⟩
  paused  := (Inputs.free 0).pause
  beep    := false
  halt    := none
  mem     := mem
  fb      := FrameBuffer.clear
  params  := params
  waiting := false
  inputs  := []
  inputIndex := 0
  trace   := []

/-- The state after reset with every unspecified register 0 and nothing written to memory (log 1, log 2), under the
spec's default policies (log 4). -/
def State.reset : State :=
  State.resetWith Params.default (Vector.replicate 16 0) 0 (Vector.replicate 16 0) []

end Sys2Proof.Machine
end

