-- ==== Sys2Proof/Machine/Memory.lean ====
section
/-! DEFINITION. Main memory (spec/20_memory.md): the reset contents, one byte read and written, the 16-bit effective
address, the range check that comes before every access, and accesses to consecutive addresses. -/

namespace Sys2Proof.Machine

/-- `FONT_DATA` (R57): sixteen glyphs of five bytes, top row first (PRESUMED by the spec, log 3). -/
def fontData : List Byte :=
  [0xF0, 0x90, 0x90, 0x90, 0xF0,  0x20, 0x60, 0x20, 0x20, 0x70,
   0xF0, 0x10, 0xF0, 0x80, 0xF0,  0xF0, 0x10, 0xF0, 0x10, 0xF0] ++
  [0x90, 0x90, 0xF0, 0x10, 0x10,  0xF0, 0x80, 0xF0, 0x10, 0xF0,
   0xF0, 0x80, 0xF0, 0x90, 0xF0,  0xF0, 0x10, 0x20, 0x40, 0x40] ++
  [0xF0, 0x90, 0xF0, 0x90, 0xF0,  0xF0, 0x90, 0xF0, 0x10, 0xF0,
   0xF0, 0x90, 0xF0, 0x90, 0x90,  0xE0, 0x90, 0xE0, 0x90, 0xE0] ++
  [0xF0, 0x80, 0x80, 0x80, 0xF0,  0xE0, 0x90, 0x90, 0x90, 0xE0,
   0xF0, 0x80, 0xF0, 0x80, 0xF0,  0xF0, 0x80, 0xF0, 0x80, 0x80]

/-- What an address that nothing has written reads as: the font, and 0 elsewhere (DESIGN CHOICE, unsafe, log 2). -/
def resetByte (a : Nat) : Byte := fontData.getD a 0

/-- Main memory's byte at an array index. -/
def Memory.read : Memory → Nat → Byte
  | [], a => resetByte a
  | (k, b) :: m, a => if k = a then b else Memory.read m a

/-- The cell of a byte at an address, none where the byte is what an unlisted address reads as. -/
def cellOf (a : Nat) (b : Byte) : Memory := if b = resetByte a then [] else [(a, b)]

/-- Main memory with one byte written, still in its canonical form. -/
def Memory.write : Memory → Nat → Byte → Memory
  | [], a, b => cellOf a b
  | (k, c) :: m, a, b =>
    if a < k then cellOf a b ++ (k, c) :: m
    else if a = k then cellOf a b ++ m
    else (k, c) :: Memory.write m a b

/-- The canonical form from address `lo` on: rising addresses below `MEM_SIZE`, no byte as reset left it. -/
def Memory.wfFrom : Nat → Memory → Bool
  | _, [] => true
  | lo, (a, b) :: m => decide (lo ≤ a) && decide (a < memSize) && decide (b ≠ resetByte a) && Memory.wfFrom (a + 1) m

/-- The canonical form of main memory. -/
def Memory.wf (m : Memory) : Bool := Memory.wfFrom 0 m

/-- `ea = (base + k) mod 2^16` (R52). -/
def effectiveAddress (base : Word) (k : Nat) : Word := base + BitVec.ofNat 16 k

/-- An access at this effective address is allowed (R53). -/
def inRange (p : AddrPolicy) (ea : Word) : Bool :=
  match p with
  | .fault  => decide (ea.toNat < memSize)
  | .wrap12 => true

/-- The first out-of-range address among `n` consecutive accesses, in the order they would be made (R54, R186). -/
def firstOutOfRange (p : AddrPolicy) : Word → Nat → Option Word
  | _, 0 => none
  | ea, n + 1 => if inRange p ea then firstOutOfRange p (ea + 1) n else some ea

/-- The array index of an access that passed the range check: the address itself, reduced modulo 4096 under
`wrap12` (R53); under `fault` the reduction changes nothing, since the check comes first (log 17). -/
def memIndex (ea : Word) : Nat := ea.toNat % memSize

/-- `MemRead(ea, 1)` after its range check (R9, R53). -/
def loadByte (m : Memory) (ea : Word) : Byte := m.read (memIndex ea)

/-- `MemWrite(ea, 1, b)` after its range check (R9, R53). -/
def storeByte (m : Memory) (ea : Word) (b : Byte) : Memory := m.write (memIndex ea) b

/-- The `n` bytes at consecutive addresses from `ea`, in ascending order. -/
def loadBytes (m : Memory) : Word → Nat → List Byte
  | _, 0 => []
  | ea, n + 1 => loadByte m ea :: loadBytes m (ea + 1) n

/-- Bytes written to consecutive addresses from `ea`, in ascending order. -/
def storeBytes : Memory → Word → List Byte → Memory
  | m, _, [] => m
  | m, ea, b :: bs => storeBytes (storeByte m ea b) (ea + 1) bs

end Sys2Proof.Machine
end

