-- ==== Sys2Proof/Machine/Ops.lean ====
section
/-! DEFINITION. The named operations over the state that the meanings share: register and field writes, `PC`, the
return stack, taking a fault, the checked memory access, and the environment's answers. -/

namespace Sys2Proof.Machine

/-! One write for each field. -/

/-- `V[x] <- b` (R21). -/
def State.setV (s : State) (x : Reg) (b : Byte) : State := { s with v := s.v.set x.val b }

/-- `I <- a` (R23). -/
def State.setI (s : State) (a : Word) : State := { s with i := a }

/-- `PC <- a` (R24). -/
def State.setPc (s : State) (a : Word) : State := { s with pc := a }

/-- `SP <- n` (R26). -/
def State.setSp (s : State) (n : Byte) : State := { s with sp := n }

/-- The return stack's sixteen entries (R27). -/
def State.setStack (s : State) (e : Vector Word 16) : State := { s with stack := e }

/-- The delay timer (R29). -/
def State.setDt (s : State) (t : Timer) : State := { s with dt := t }

/-- The sound timer (R29). -/
def State.setSt (s : State) (t : Timer) : State := { s with st := t }

/-- `PAUSED` (R32). -/
def State.setPaused (s : State) (b : Bool) : State := { s with paused := b }

/-- `BEEP` (R31). -/
def State.setBeep (s : State) (b : Bool) : State := { s with beep := b }

/-- `HALT` (R33). -/
def State.setHalt (s : State) (r : FaultRecord) : State := { s with halt := some r }

/-- Main memory (R34). -/
def State.setMem (s : State) (m : Memory) : State := { s with mem := m }

/-- The framebuffer (R35). -/
def State.setFb (s : State) (f : FrameBuffer) : State := { s with fb := f }

/-- LDK's wait (log 8). -/
def State.setWaiting (s : State) (b : Bool) : State := { s with waiting := b }

/-- An output pulse or notification (log 12). -/
def State.emit (s : State) (e : Event) : State := { s with trace := e :: s.trace }

/-! The program counter. -/

/-- The advance by one instruction width (R25, R94). -/
def State.advance (s : State) : State := s.setPc (s.pc + 2)

/-- A skip's final `PC`: past the next instruction when the condition holds (R95). -/
def State.skipIf (s : State) (cond : Bool) : State := s.setPc (if cond then s.pc + 4 else s.pc + 2)

/-! Faults (R185). -/

/-- TAKING A FAULT: the record goes into `HALT` with the faulting instruction's address, and nothing else of the
engine changes (R96, R185, R186). There is no return: only reset leaves the halted state (R188). -/
def State.raise (s : State) (code : FaultCode) (word addr : Option Word) : State :=
  s.setHalt { code := code, pc := s.pc, word := word, addr := addr }

/-- The number of a fault (R180). -/
def FaultCode.number : FaultCode → Nat
  | .unrecognizedInstruction => 1
  | .stackOverflow           => 2
  | .stackUnderflow          => 3
  | .addressFault            => 4

/-- A stack-bounds violation: the fault under `strict`, a no-op that advances `PC` under `permissive` (R182, R183). -/
def State.stackViolation (s : State) (code : FaultCode) (word : Word) : State :=
  match s.params.stackPolicy with
  | .strict     => s.raise code (some word) none
  | .permissive => s.advance

/-! The return stack (R28). -/

/-- `Push(a)`, for `SP` below 16. -/
def State.push (s : State) (a : Word) (h : s.sp.toNat < 16) : State :=
  (s.setStack (s.stack.set s.sp.toNat a)).setSp (s.sp + 1)

/-- The index of the entry `Pop()` uncovers, `SP - 1`; none where no entry is live (log 9). -/
def State.popIndex (s : State) : Option (Fin 16) :=
  if h : 0 < s.sp.toNat ∧ s.sp.toNat ≤ 16 then some ⟨s.sp.toNat - 1, by omega⟩ else none

/-! Memory through `I` (R150). -/

/-- The access of an instruction to `n` consecutive bytes at `I`: the range of all of them is checked before
anything changes (R54), and the first address out of range raises `AddressFault` (R184, R186). -/
def State.checked (s : State) (n : Nat) (word : Word) (access : State → State) : State :=
  match firstOutOfRange s.params.addrPolicy s.i n with
  | some ea => s.raise .addressFault (some word) (some ea)
  | none    => access s

/-- Bytes written from `I` upward. -/
def State.storeAtI (s : State) (bs : List Byte) : State := s.setMem (storeBytes s.mem s.i bs)

/-- `n` bytes read from `I` upward. -/
def State.loadAtI (s : State) (n : Nat) : List Byte := loadBytes s.mem s.i n

/-! The environment (R36, R200 to R203; log 6). -/

/-- The environment's answers for this step: the oldest known ones, and free ones where none are known. -/
def State.input (s : State) : Inputs :=
  match s.inputs with
  | []     => Inputs.free s.inputIndex
  | f :: _ => f

/-- This step's answers are used up. -/
def State.takeInput (s : State) : State :=
  { s with inputs := s.inputs.tail, inputIndex := s.inputIndex + 1 }

/-- `env.key_down(k)` for an 8-bit key number (R200). -/
def State.keyDown (s : State) (k : Byte) : Bool :=
  if h : k.toNat < 16 then s.input.keysDown[k.toNat] else s.input.keyBeyond

end Sys2Proof.Machine
end

