-- ==== Sys2Proof/Machine/Operands.lean ====
section
/-! DEFINITION. The operand forms (spec/30_encoding.md R72): a register, zero-extended immediates and registers, and
the block of registers `V0..VX`. -/

namespace Sys2Proof.Machine

/-- `V[x]` as an operand (R21). -/
def State.readV (s : State) (x : Reg) : Byte := s.v[x.val]

/-- `zext_16(NNN)` (R72). -/
def zextAddr (nnn : Addr12) : Word := nnn.setWidth 16

/-- `zext_16` of a register's byte (R9). -/
def zextByte (b : Byte) : Word := b.setWidth 16

/-- The bytes of `V[0..x]`, in ascending order (R155). -/
def State.regBlock (s : State) (x : Reg) : List Byte := s.v.toList.take (x.val + 1)

/-- `V[0..x]` taken from a list of bytes in ascending order, the registers above as they were (R156). -/
def State.setRegBlock (s : State) (x : Reg) (bs : List Byte) : State :=
  { s with v := Vector.ofFn fun k : Fin 16 => if k.val ≤ x.val then bs.getD k.val 0 else s.v[k.val] }

/-- The three decimal digits of a byte: hundreds, tens, ones (R154). -/
def bcdDigits (b : Byte) : List Byte :=
  [BitVec.ofNat 8 (b.toNat / 100), BitVec.ofNat 8 (b.toNat / 10 % 10), BitVec.ofNat 8 (b.toNat % 10)]

/-- The address of a digit's glyph: `FONT_BASE + 5 * digit`, unmasked (R153). -/
def glyphAddress (digit : Byte) : Word := BitVec.ofNat 16 (5 * digit.toNat)

end Sys2Proof.Machine
end

