-- ==== Sys2Proof/Machine/Timers.lean ====
section
/-! DEFINITION. The timer engine (spec/60_exceptions.md R190 to R198). -/

namespace Sys2Proof.Machine

/-- `Write(v)`: the value, and a full interval ahead of it where it is not zero (R191). -/
def Timer.load (interval : Nat) (b : Byte) : Timer :=
  { value := b, remaining := if b = 0 then 0 else (interval : Int) }

/-- What one `Update` raised: nothing, Elapsed, or Elapsed and then Stopped (R193). -/
inductive Notice where
  | quiet
  | elapsed
  | elapsedStopped
  deriving DecidableEq, Repr

/-- `Update(e)` (R192). -/
def Timer.update (t : Timer) (interval e : Nat) : Timer × Notice :=
  if t.value = 0 then (t, .quiet)
  else if 0 < t.remaining - (e : Int) then ({ t with remaining := t.remaining - (e : Int) }, .quiet)
  else if t.value - 1 = 0 then ({ value := 0, remaining := 0 }, .elapsedStopped)
  else ({ value := t.value - 1, remaining := (interval : Int) + (t.remaining - (e : Int)) }, .elapsed)

/-- The delay timer's notifications change no state of the engine (R196); they are only recorded. -/
def State.noteDt (s : State) : Notice → State
  | .quiet          => s
  | .elapsed        => s.emit (.elapsed .dt)
  | .elapsedStopped => (s.emit (.elapsed .dt)).emit (.stopped .dt)

/-- Elapsed of the sound timer starts the tone (R197, R199). -/
def State.beepOn (s : State) : State := ((s.emit (.elapsed .st)).setBeep true).emit .beepStart

/-- Stopped of the sound timer ends the tone (R197, R199). -/
def State.beepOff (s : State) : State := ((s.emit (.stopped .st)).setBeep false).emit .beepEnd

/-- The sound timer's notifications drive `BEEP`, Elapsed before Stopped (R197). -/
def State.noteSt (s : State) : Notice → State
  | .quiet          => s
  | .elapsed        => s.beepOn
  | .elapsedStopped => s.beepOn.beepOff

/-- `DT.Update(e)`. -/
def State.updateDt (s : State) (e : Nat) : State :=
  (s.setDt (s.dt.update s.params.interval e).1).noteDt (s.dt.update s.params.interval e).2

/-- `ST.Update(e)`. -/
def State.updateSt (s : State) (e : Nat) : State :=
  (s.setSt (s.st.update s.params.interval e).1).noteSt (s.st.update s.params.interval e).2

/-- The timer update at the end of a cycle: `DT`, then `ST`, with the same elapsed ticks (R194). -/
def State.updateTimers (s : State) (e : Nat) : State := (s.updateDt e).updateSt e

end Sys2Proof.Machine
end

