-- ==== Sys2Proof/Machine/Cycle.lean ====
section
/-! DEFINITION. The instruction cycle (spec/40_dispatch_cycle.md R90 to R99) around the handler: the sample of `PAUSE`,
the fetch, the end of a cycle with its timer update; and the loader's contract (spec/70_reset_and_hazards.md R213). -/

namespace Sys2Proof.Machine

/-- The top of the cycle: `PAUSED <- PAUSE`. During LDK's wait the input is not looked at, and `PAUSED` is 0 (R98). -/
def State.samplePause (s : State) : State := s.setPaused (!s.waiting && s.input.pause)

/-- The cycle is under way: `frame_start`, once in a cycle; a wait is left, and LDK enters it anew if no key has
come (R97, R99). -/
def State.enterCycle (s : State) : State := if s.waiting then s.setWaiting false else s.emit .frameStart

/-- The 16-bit word at `PC`, high byte first (R55, R91); an out-of-range byte address instead (R53). -/
def fetchWord (s : State) : Except Word Word :=
  match firstOutOfRange s.params.addrPolicy s.pc 2 with
  | some ea => .error ea
  | none    => .ok (joinBytes (loadByte s.mem s.pc) (loadByte s.mem (s.pc + 1)))

/-- The end of a completed cycle: `frame_done`, then both timers with the elapsed ticks (R90, R194). -/
def State.finishCycle (s : State) : State := ((s.emit .frameDone).updateTimers s.input.elapsed).takeInput

/-- After the handler: a fault ends the cycle at once (R96), LDK's wait does not end it (R99), and otherwise it is
finished. -/
def State.endCycle (s : State) : State :=
  if s.halt.isSome then s else if s.waiting then s.takeInput else s.finishCycle

/-- Fetch, decode and execute in a cycle that is under way (R90, R187). -/
def executeCycle (handler : Instr → State → Result) (s : State) : Result :=
  match fetchWord s with
  | .error ea => .next (s.raise .addressFault none (some ea))
  | .ok w =>
    match decodeWord w with
    | .error _ => .next (s.raise .unrecognizedInstruction (some w) none)
    | .ok i =>
      match handler i s with
      | .next t    => .next t.endCycle
      | .fault r   => .fault r
      | .refused r => .refused r

/-- One instruction cycle (R90). A halted engine and a paused one do nothing (R185, R98). -/
def runCycle (handler : Instr → State → Result) (s : State) : Result :=
  if s.halt.isSome then .next s
  else if s.samplePause.paused then .next s.samplePause.takeInput
  else executeCycle handler s.samplePause.enterCycle

/-- The loader (R213): the program's bytes copied from `LOAD_ADDR` upward and `PC` set there; none for a program
that does not fit, which is a loader failure (log 16). -/
def State.load (s : State) (program : List Byte) : Option State :=
  if program.length ≤ memSize - loadAddr.toNat then
    some ((s.setMem (storeBytes s.mem loadAddr program)).setPc loadAddr)
  else none

end Sys2Proof.Machine
end

