-- ==== Sys2Proof/Machine/Flags.lean ====
section
/-! DEFINITION. The flag register `VF` (spec/10_state.md R22) and the flag of each instruction that has one
(spec/42_alu.md R137 to R141). -/

namespace Sys2Proof.Machine

/-- The flag register `VF` is `V[15]`. -/
def flagReg : Reg := 15

/-- A flag's byte: 1 or 0. -/
def flagByte (b : Bool) : Byte := if b then 1 else 0

/-- Carry out of bit 7 of `a + b`: the true sum is 256 or more (R137). -/
def carryFlag (a b : Byte) : Bool := decide (255 < a.toNat + b.toNat)

/-- No borrow in `a - b` (R138, R140). -/
def notBorrowFlag (a b : Byte) : Bool := decide (b.toNat ≤ a.toNat)

/-- The bit a right shift moves out: bit 0 (R139). -/
def shiftedOutRight (a : Byte) : Bool := a.getLsbD 0

/-- The bit a left shift moves out: bit 7 (R141). -/
def shiftedOutLeft (a : Byte) : Bool := a.getLsbD 7

/-- `VF <- flag`. -/
def State.setFlag (s : State) (flag : Bool) : State := s.setV flagReg (flagByte flag)

/-- A result to `V[x]` and then the flag to `VF`, so that for `x = 15` the flag wins (R130), and the advance. -/
def State.writeResult (s : State) (x : Reg) (result : Byte) (flag : Bool) : State :=
  ((s.setV x result).setFlag flag).advance

end Sys2Proof.Machine
end

