-- ==== Sys2Proof/Machine/Alu.lean ====
section
/-! DEFINITION. Register and arithmetic instructions (spec/42_alu.md R130 to R143): LD_KK, ADD_KK, LD_VY, OR, AND, XOR,
ADD, SUB, SHR, SUBN, SHL, RND. Operands are read before anything is written (R130). -/

namespace Sys2Proof.Machine

/-- LD_KK (R131). -/
def execLdKk (x : Reg) (kk : Byte) (s : State) : Result := .next (s.setV x kk).advance

/-- ADD_KK (R132): wraps; `VF` is not written as a flag. -/
def execAddKk (x : Reg) (kk : Byte) (s : State) : Result := .next (s.setV x (s.readV x + kk)).advance

/-- LD_VY (R133). -/
def execLdVy (x y : Reg) (s : State) : Result := .next (s.setV x (s.readV y)).advance

/-- OR (R134): no flag. -/
def execOr (x y : Reg) (s : State) : Result := .next (s.setV x (s.readV x ||| s.readV y)).advance

/-- AND (R135): no flag. -/
def execAnd (x y : Reg) (s : State) : Result := .next (s.setV x (s.readV x &&& s.readV y)).advance

/-- XOR (R136): no flag. -/
def execXor (x y : Reg) (s : State) : Result := .next (s.setV x (s.readV x ^^^ s.readV y)).advance

/-- ADD (R137): the sum modulo 256, then the carry. -/
def execAdd (x y : Reg) (s : State) : Result :=
  .next (s.writeResult x (s.readV x + s.readV y) (carryFlag (s.readV x) (s.readV y)))

/-- SUB (R138): `V[X] - V[Y]` modulo 256, then the not-borrow flag. -/
def execSub (x y : Reg) (s : State) : Result :=
  .next (s.writeResult x (s.readV x - s.readV y) (notBorrowFlag (s.readV x) (s.readV y)))

/-- SHR (R139): `V[X]` shifted in place; `V[Y]` is ignored. -/
def execShr (x _y : Reg) (s : State) : Result :=
  .next (s.writeResult x (s.readV x >>> 1) (shiftedOutRight (s.readV x)))

/-- SUBN (R140): `V[Y] - V[X]` modulo 256 to `V[X]`, then the not-borrow flag. -/
def execSubn (x y : Reg) (s : State) : Result :=
  .next (s.writeResult x (s.readV y - s.readV x) (notBorrowFlag (s.readV y) (s.readV x)))

/-- SHL (R141): `V[X]` shifted in place; `V[Y]` is ignored. -/
def execShl (x _y : Reg) (s : State) : Result :=
  .next (s.writeResult x (s.readV x <<< 1) (shiftedOutLeft (s.readV x)))

/-- RND (R142): the free random byte masked by the immediate. -/
def execRnd (x : Reg) (kk : Byte) (s : State) : Result := .next (s.setV x (s.input.rnd &&& kk)).advance

end Sys2Proof.Machine
end

