-- ==== Sys2Proof/Machine/Flow.lean ====
section
/-! DEFINITION. Control flow (spec/41_flow.md R111 to R119): SYS, RET, JP, CALL, SE_KK, SNE_KK, SE_VY, SNE_VY, JPV0. -/

namespace Sys2Proof.Machine

/-- SYS (R111): a no-op; `NNN` is ignored. -/
def execSys (_nnn : Addr12) (s : State) : Result := .next s.advance

/-- RET (R112, R183): `SP <- SP - 1; PC <- STACK[SP]`, with no advance. -/
def execRet (ignored : Nibble) (s : State) : Result :=
  .next (match s.popIndex with
    | some k => (s.setSp (s.sp - 1)).setPc s.stack[k.val]
    | none   => s.stackViolation .stackUnderflow (encode (.ret ignored)))

/-- JP (R113). -/
def execJp (nnn : Addr12) (s : State) : Result := .next (s.setPc (zextAddr nnn))

/-- CALL (R114, R182): pushes the address of the instruction after it. -/
def execCall (nnn : Addr12) (s : State) : Result :=
  .next (if h : s.sp.toNat < 16 then (s.push (s.pc + 2) h).setPc (zextAddr nnn)
    else s.stackViolation .stackOverflow (encode (.call nnn)))

/-- SE_KK (R115). -/
def execSeKk (x : Reg) (kk : Byte) (s : State) : Result := .next (s.skipIf (s.readV x == kk))

/-- SNE_KK (R116). -/
def execSneKk (x : Reg) (kk : Byte) (s : State) : Result := .next (s.skipIf (s.readV x != kk))

/-- SE_VY (R117); the low nibble is ignored (R76). -/
def execSeVy (x y : Reg) (_ignored : Nibble) (s : State) : Result := .next (s.skipIf (s.readV x == s.readV y))

/-- SNE_VY (R118); the low nibble is ignored (R76). -/
def execSneVy (x y : Reg) (_ignored : Nibble) (s : State) : Result := .next (s.skipIf (s.readV x != s.readV y))

/-- JPV0 (R119): the plain 16-bit sum, not reduced to 12 bits. -/
def execJpv0 (nnn : Addr12) (s : State) : Result := .next (s.setPc (zextAddr nnn + zextByte (s.readV 0)))

end Sys2Proof.Machine
end

