-- ==== Sys2Proof/Machine/Index.lean ====
section
/-! DEFINITION. Address register and memory instructions (spec/43_index_memory.md R150 to R156): LDI, ADDI, LDF, LDBCD,
LDRW, LDRS. `I` is unchanged by the last three (R150). -/

namespace Sys2Proof.Machine

/-- LDI (R151). -/
def execLdi (nnn : Addr12) (s : State) : Result := .next (s.setI (zextAddr nnn)).advance

/-- ADDI (R152): wraps at 16 bits; no flag. -/
def execAddi (x : Reg) (s : State) : Result := .next (s.setI (s.i + zextByte (s.readV x))).advance

/-- LDF (R153). -/
def execLdf (x : Reg) (s : State) : Result := .next (s.setI (glyphAddress (s.readV x))).advance

/-- LDBCD (R154): hundreds, tens and ones at `I`, `I+1`, `I+2`. -/
def execLdbcd (x : Reg) (s : State) : Result :=
  .next (s.checked 3 (encode (.ldbcd x)) fun s => (s.storeAtI (bcdDigits (s.readV x))).advance)

/-- LDRW (R155): `V[0..X]` to memory from `I` upward. -/
def execLdrw (x : Reg) (s : State) : Result :=
  .next (s.checked (x.val + 1) (encode (.ldrw x)) fun s => (s.storeAtI (s.regBlock x)).advance)

/-- LDRS (R156): `V[0..X]` from memory from `I` upward. -/
def execLdrs (x : Reg) (s : State) : Result :=
  .next (s.checked (x.val + 1) (encode (.ldrs x)) fun s =>
    (s.setRegBlock x (s.loadAtI (x.val + 1))).advance)

end Sys2Proof.Machine
end

