-- ==== Sys2Proof/Machine/Keypad.lean ====
section
/-! DEFINITION. Keypad and timer instructions (spec/45_keypad_timer_ops.md R170 to R176): SKP, SKNP, LDVDT, LDK, LDDT,
LDST. -/

namespace Sys2Proof.Machine

/-- SKP (R171): the key is the value of `V[X]`. -/
def execSkp (x : Reg) (s : State) : Result := .next (s.skipIf (s.keyDown (s.readV x)))

/-- SKNP (R172); the low byte is ignored (R77). -/
def execSknp (x : Reg) (_ignored : Byte) (s : State) : Result := .next (s.skipIf (!s.keyDown (s.readV x)))

/-- LDVDT (R173). -/
def execLdvdt (x : Reg) (s : State) : Result := .next (s.setV x s.dt.value).advance

/-- LDK (R174): the key that has gone down, or the wait goes on with nothing changed (log 8). -/
def execLdk (x : Reg) (s : State) : Result :=
  .next (match s.input.keyEvent with
    | some k => (s.setV x (BitVec.ofNat 8 k.val)).advance
    | none   => s.setWaiting true)

/-- LDDT (R175). -/
def execLddt (x : Reg) (s : State) : Result := .next (s.setDt (Timer.load s.params.interval (s.readV x))).advance

/-- LDST (R176): `BEEP` does not change. -/
def execLdst (x : Reg) (s : State) : Result := .next (s.setSt (Timer.load s.params.interval (s.readV x))).advance

end Sys2Proof.Machine
end

