-- ==== Sys2Proof/Machine/Display.lean ====
section
/-! DEFINITION. The sprite-blit and collision unit (spec/44_display.md R160 to R164). -/

namespace Sys2Proof.Machine

/-- `FB[x][y]`. -/
def FrameBuffer.pixel (f : FrameBuffer) (x : Fin 64) (y : Fin 32) : Bool := f[y.val][x.val]

/-- `FB[x][y] <- FB[x][y] ^ 1`. -/
def FrameBuffer.flip (f : FrameBuffer) (x : Fin 64) (y : Fin 32) : FrameBuffer :=
  f.set y.val (f[y.val].set x.val (!f.pixel x y))

/-- A framebuffer and whether the draw so far has unset a set pixel. -/
structure Blit where
  fb       : FrameBuffer
  collided : Bool
  deriving DecidableEq, Repr

/-- One bit of the sprite: a set bit flips its cell and collides where the cell was set (R162, R163). -/
def Blit.bit (d : Blit) (x : Fin 64) (y : Fin 32) (b : Bool) : Blit :=
  if b then { fb := d.fb.flip x y, collided := d.collided || d.fb.pixel x y } else d

/-- One byte of the sprite: eight columns, the most significant bit first; columns wrap at 64, rows at 32 (R162). -/
def Blit.row (d : Blit) (ox oy : Nat) (b : Byte) : Blit :=
  (List.range 8).foldl
    (fun d col => d.bit (Fin.ofNat 64 (ox + col)) (Fin.ofNat 32 oy) (b.getLsbD (7 - col))) d

/-- The bytes of the sprite, one row below the other. -/
def Blit.rows (d : Blit) (ox : Nat) : Nat → List Byte → Blit
  | _, [] => d
  | oy, b :: bs => (d.row ox oy b).rows ox (oy + 1) bs

/-- `DrawSprite(originX, originY, bytes)` (R162). -/
def drawSprite (f : FrameBuffer) (ox oy : Byte) (bytes : List Byte) : Blit :=
  Blit.rows { fb := f, collided := false } ox.toNat oy.toNat bytes

end Sys2Proof.Machine
end

