-- ==== Sys2Proof/Machine/Screen.lean ====
section
/-! DEFINITION. Display instructions (spec/44_display.md R165, R166): CLS, DRW. -/

namespace Sys2Proof.Machine

/-- CLS (R161, R165). -/
def execCls (_ignored : Nibble) (s : State) : Result := .next (s.setFb FrameBuffer.clear).advance

/-- The blit of DRW at `(V[X], V[Y])`, and its collision flag in `VF` (R166). -/
def State.blitAtI (s : State) (x y : Reg) (n : Nat) : State :=
  let d := drawSprite s.fb (s.readV x) (s.readV y) (s.loadAtI n)
  (s.setFb d.fb).setFlag d.collided

/-- DRW (R166): with `N = 0` nothing is read or drawn and `VF` becomes 0. -/
def execDrw (x y : Reg) (n : Fin 16) (s : State) : Result :=
  .next (s.checked n.val (encode (.drw x y n)) fun s => (s.blitAtI x y n.val).advance)

end Sys2Proof.Machine
end

