-- ==== Sys2Proof/Machine/Dispatch.lean ====
section
/-! DEFINITION. Dispatch (spec/40_dispatch_cycle.md R92): one arm for each instruction, each a call of its meaning. -/

namespace Sys2Proof.Machine

/-- The handler of an instruction together with the `PC` update of its rule (R94). -/
def exec (i : Instr) (s : State) : Host.Outcome State Fault Refusal :=
  match i with
  | .sys nnn => Sys2Proof.Machine.execSys nnn s
  | .cls n => Sys2Proof.Machine.execCls n s
  | .ret n => Sys2Proof.Machine.execRet n s
  | .jp nnn => Sys2Proof.Machine.execJp nnn s
  | .call nnn => Sys2Proof.Machine.execCall nnn s
  | .seKk x kk => Sys2Proof.Machine.execSeKk x kk s
  | .sneKk x kk => Sys2Proof.Machine.execSneKk x kk s
  | .seVy x y n => Sys2Proof.Machine.execSeVy x y n s
  | .ldKk x kk => Sys2Proof.Machine.execLdKk x kk s
  | .addKk x kk => Sys2Proof.Machine.execAddKk x kk s
  | .ldVy x y => Sys2Proof.Machine.execLdVy x y s
  | .or x y => Sys2Proof.Machine.execOr x y s
  | .and x y => Sys2Proof.Machine.execAnd x y s
  | .xor x y => Sys2Proof.Machine.execXor x y s
  | .add x y => Sys2Proof.Machine.execAdd x y s
  | .sub x y => Sys2Proof.Machine.execSub x y s
  | .shr x y => Sys2Proof.Machine.execShr x y s
  | .subn x y => Sys2Proof.Machine.execSubn x y s
  | .shl x y => Sys2Proof.Machine.execShl x y s
  | .sneVy x y n => Sys2Proof.Machine.execSneVy x y n s
  | .ldi nnn => Sys2Proof.Machine.execLdi nnn s
  | .jpv0 nnn => Sys2Proof.Machine.execJpv0 nnn s
  | .rnd x kk => Sys2Proof.Machine.execRnd x kk s
  | .drw x y n => Sys2Proof.Machine.execDrw x y n s
  | .skp x => Sys2Proof.Machine.execSkp x s
  | .sknp x kk => Sys2Proof.Machine.execSknp x kk s
  | .ldvdt x => Sys2Proof.Machine.execLdvdt x s
  | .ldk x => Sys2Proof.Machine.execLdk x s
  | .lddt x => Sys2Proof.Machine.execLddt x s
  | .ldst x => Sys2Proof.Machine.execLdst x s
  | .addi x => Sys2Proof.Machine.execAddi x s
  | .ldf x => Sys2Proof.Machine.execLdf x s
  | .ldbcd x => Sys2Proof.Machine.execLdbcd x s
  | .ldrw x => Sys2Proof.Machine.execLdrw x s
  | .ldrs x => Sys2Proof.Machine.execLdrs x s

end Sys2Proof.Machine
end

