-- ==== Sys2Proof/Machine/Step.lean ====
section
/-! DEFINITION. The step of the machine is one instruction cycle (spec/40_dispatch_cycle.md R90). -/

namespace Sys2Proof.Machine

/-- One step. -/
def step (s : State) : Host.Outcome State Fault Refusal := runCycle exec s

/-- Where an instruction is placed for the next fetch: at `PC`, or at `LOAD_ADDR` where no word can be fetched at
`PC`. -/
def State.placeAddress (s : State) : Word :=
  if (firstOutOfRange s.params.addrPolicy s.pc 2).isNone then s.pc else loadAddr

/-- The environment's next answers with `PAUSE` low, so that the next cycle fetches (R98). -/
def unpaused : List Inputs → List Inputs
  | []      => [Inputs.quiet]
  | f :: fs => { f with pause := false } :: fs

/-- `s` made ready to run the instruction of the table's bits `w` in its next step: the word stands at `PC`, the
engine is not halted, and `PAUSE` is low (log 13). -/
def State.withFetchWord (s : State) (nbits w : Nat) : State :=
  { s with
    mem    := storeBytes s.mem s.placeAddress (wordBytes (tableWord nbits w))
    pc     := s.placeAddress
    halt   := none
    inputs := unpaused s.inputs }

end Sys2Proof.Machine
end

