-- ==== Sys2Proof/Safety.lean ====
section
/-! DEFINITION. What counts as a safe run, and the terms the statements use: the invariant every step keeps, the
frames, when an access through `I` is in range, which pixels a sprite covers, and which word an instruction has. -/

namespace Sys2Proof.Machine

/-- A timer between updates: an Inactive one has nothing remaining (R192), and no more than one interval ever
remains. -/
def Timer.Ok (interval : Nat) (t : Timer) : Prop :=
  (t.value = 0 → t.remaining = 0) ∧ t.remaining ≤ (interval : Int)

/-- A fault record names the instruction that stands at `PC` (R186): its word where the fetch succeeded, and an
out-of-range address exactly for `AddressFault`. -/
structure HaltOk (s : State) (r : FaultRecord) : Prop where
  pcHeld   : r.pc = s.pc
  addrIff  : r.code = .addressFault ↔ r.addr.isSome
  outside  : ∀ ea, r.addr = some ea → memSize ≤ ea.toNat
  wordHeld : ∀ w, r.word = some w → fetchWord s = .ok w
  noWord   : r.word = none → ∃ ea, r.addr = some ea ∧ fetchWord s = .error ea

/-- While the model waits, LDK stands at `PC`, the engine runs and `PAUSED` is 0 (R98, R99). -/
structure WaitOk (s : State) : Prop where
  running  : s.halt = none
  unpaused : s.paused = false
  atLdk    : ∃ w x, fetchWord s = .ok w ∧ decodeWord w = .ok (.ldk x)

/-- The invariant of the model. -/
structure State.Inv (s : State) : Prop where
  memCanonical : s.mem.wf = true
  spBound      : s.sp.toNat ≤ 16
  intervalPos  : 0 < s.params.interval
  dtOk         : s.dt.Ok s.params.interval
  stOk         : s.st.Ok s.params.interval
  haltOk       : ∀ r, s.halt = some r → HaltOk s r
  waitOk       : s.waiting = true → WaitOk s

/-- The states a run from `s` comes through. -/
inductive Reaches (s : State) : State → Prop where
  | refl : Reaches s s
  | next {t u : State} : Reaches s t → step t = .next u → Reaches s u

/-- A safe run: the engine never halts on a fault. -/
def SafeFrom (s : State) : Prop := ∀ t, Reaches s t → t.halt = none

/-- The frame of a form that stores nothing and writes at most the registers `dest` and `PC`. -/
structure RegisterFrame (s t : State) (dest : List Reg) : Prop where
  others    : t = { s with v := t.v, pc := t.pc }
  registers : ∀ r : Reg, r ∉ dest → t.readV r = s.readV r
  memory    : ∀ a, t.mem.read a = s.mem.read a

/-- The frame of a form that stores `n` bytes at consecutive effective addresses from `I` (R52) and else writes
`PC` alone. -/
structure StoreFrame (s t : State) (n : Nat) : Prop where
  others : t = { s with mem := t.mem, pc := t.pc }
  memory : ∀ a, (∀ k, k < n → memIndex (effectiveAddress s.i k) ≠ a) → t.mem.read a = s.mem.read a

/-- `n` bytes can be accessed from `I` without `AddressFault` (R53, R54). -/
def AccessOk (s : State) (n : Nat) : Prop :=
  n = 0 ∨ s.params.addrPolicy = .wrap12 ∨ s.i.toNat + n ≤ memSize

/-- The sprite with origin (`ox`, `oy`) has a set bit over the pixel (`x`, `y`), wrapping on both axes (R162). -/
def spriteCovers (ox oy : Byte) (bytes : List Byte) (x : Fin 64) (y : Fin 32) : Bool :=
  decide ((x.val + 64 - ox.toNat % 64) % 64 < 8) &&
    (bytes.getD ((y.val + 32 - oy.toNat % 32) % 32) 0).getLsbD (7 - (x.val + 64 - ox.toNat % 64) % 64)

/-- The word numbered `w` is the instruction `i`, both ways, under dispatch index `index` (R74). -/
structure Encoded (i : Instr) (w index : Nat) : Prop where
  decoded : decodeWord (BitVec.ofNat 16 w) = .ok i
  encoded : encode i = BitVec.ofNat 16 w
  indexed : dispatchIndex i = index

/-- The state in which the handler of a new cycle starts: `PAUSE` was sampled low and `frame_start` raised. -/
def State.cycleStart (s : State) : State := { s with paused := false, trace := .frameStart :: s.trace }

end Sys2Proof.Machine
end

