-- ==== Sys2Proof/Certificates/Slice0/Obligations.lean ====
section
/-! DEFINITION. The statements for the provers. Where a docstring names a decision `D<n>` of spec/92_eei_decisions.md,
the rule formalised is the spec's own choice or taken from general knowledge, not its source's word. -/

open Sys2Proof Sys2Proof.Machine

/-! Encoding. -/

/-- Every well-formed instruction is read back from its word, every operand at every value (30_encoding.md R74). -/
def Obligations.DecodeOfEncodeIsIdentity : Prop :=
  ∀ i : Instr, i.wf = true → decodeWord (encode i) = .ok i

/-- Every word that is an instruction is the word of that instruction, and the instruction is well-formed: no bit of
a word is lost by decoding (30_encoding.md R70 to R77; the ignored bits are kept, log 14). -/
def Obligations.EncodeOfDecodeIsIdentity : Prop :=
  ∀ (w : Word) (i : Instr), decodeWord w = .ok i → encode i = w ∧ i.wf = true

/-- The fields of R71: the word is its four nibbles, and `KK`, `Op3`, `NNN`, `Op2` are views of the same bits. -/
def Obligations.FieldsPartitionTheWord : Prop :=
  ∀ w : Word,
    w.toNat = op1 w * 4096 + (fieldX w).val * 256 + (fieldY w).val * 16 + (fieldN w).val ∧
    op1 w < 16 ∧
    op2 w = (fieldN w).val ∧
    (fieldKK w).toNat = (fieldY w).val * 16 + (fieldN w).val ∧
    op3 w = (fieldKK w).toNat ∧
    (fieldNNN w).toNat = (fieldX w).val * 256 + (fieldKK w).toNat

/-- `ResolveIndex` of R73 with its index formulas: the decoder gives every word the instruction with that index, or
the unrecognised-instruction error that names the word. -/
def Obligations.DecoderIsResolveIndex : Prop :=
  ∀ w : Word,
    (match decodeWord w with | .ok i => some (dispatchIndex i) | .error _ => none) =
      (if op1 w = 0x0 then (if op3 w = 0xE0 then some 1 else if op3 w = 0xEE then some 2 else some 0)
       else if op1 w ≤ 0x7 then some (op1 w + 2)
       else if op1 w = 0x8 then
         (if op2 w ≤ 0x7 then some (op2 w + 10) else if op2 w = 0xE then some 18 else none)
       else if op1 w ≤ 0xD then some (op1 w + 10)
       else if op1 w = 0xE then (if op3 w = 0x9E then some 24 else some 25)
       else ([(0x07, 26), (0x0A, 27), (0x15, 28), (0x18, 29), (0x1E, 30), (0x29, 31), (0x33, 32), (0x55, 33),
         (0x65, 34)].find? fun row : Nat × Nat => row.1 == op3 w).map (·.2)) ∧
    ∀ e, decodeWord w = .error e → e = .unrecognizedInstruction w

/-- The decoder selects the first row of the match and mask table, CLS, RET and SKP first (30_encoding.md R74; the
index numbers of classes 0, E and F are decision D5). -/
def Obligations.DecoderAgreesWithTheOpcodeTable : Prop :=
  ∀ w : Word, (match decodeWord w with | .ok i => some (dispatchIndex i) | .error _ => none) = tableIndex w

/-- Classes 0, 5 and 9: CLS, RET, SYS, SE_VY and SNE_VY whatever the bits the decoder does not examine, which change
nothing the instruction does (30_encoding.md R75, R76). -/
def Obligations.DontCareBitsHaveNoEffect : Prop :=
  (∀ w : Word, op1 w = 0x0 → op3 w = 0xE0 →
    ∃ n, decodeWord w = .ok (.cls n) ∧ ∀ m s, exec (.cls n) s = exec (.cls m) s) ∧
  (∀ w : Word, op1 w = 0x0 → op3 w = 0xEE →
    ∃ n, decodeWord w = .ok (.ret n) ∧
      ∀ m (s : State), 0 < s.sp.toNat → s.sp.toNat ≤ 16 → exec (.ret n) s = exec (.ret m) s) ∧
  (∀ w : Word, op1 w = 0x0 → op3 w ≠ 0xE0 → op3 w ≠ 0xEE →
    decodeWord w = .ok (.sys (fieldNNN w)) ∧
      ∀ s : State, exec (.sys (fieldNNN w)) s = .next { s with pc := s.pc + 2 }) ∧
  (∀ w : Word, op1 w = 0x5 →
    ∃ n, decodeWord w = .ok (.seVy (fieldX w) (fieldY w) n) ∧
      ∀ m s, exec (.seVy (fieldX w) (fieldY w) n) s = exec (.seVy (fieldX w) (fieldY w) m) s) ∧
  (∀ w : Word, op1 w = 0x9 →
    ∃ n, decodeWord w = .ok (.sneVy (fieldX w) (fieldY w) n) ∧
      ∀ m s, exec (.sneVy (fieldX w) (fieldY w) n) s = exec (.sneVy (fieldX w) (fieldY w) m) s)

/-- Words written out from the encoding column, one of each family (30_encoding.md R74; 95_test_vectors.md TV-D0 to
TV-D7). -/
def Obligations.SampleWordsDecode : Prop :=
  decodeWord 0xD5A3 = .ok (.drw 5 10 3) ∧ decodeWord 0x05E0 = .ok (.cls 5) ∧ decodeWord 0x512F = .ok (.seVy 1 2 0xF) ∧
  decodeWord 0x8124 = .ok (.add 1 2) ∧ decodeWord 0xF533 = .ok (.ldbcd 5) ∧ decodeWord 0xE100 = .ok (.sknp 1 0x00) ∧
  decodeWord 0x6A02 = .ok (.ldKk 10 0x02)

/-! Reset, the invariant and the cycle. -/

/-- Reset, for every value of what the spec leaves unspecified: `PC` at `LOAD_ADDR`, an empty stack, both timers
Inactive, the tone off, the engine not halted, the display clear, and the font in the memory that `State.reset` has
(10_state.md R38, 70_reset_and_hazards.md R211, 20_memory.md R57; decisions D21, D14). -/
def Obligations.ResetLeavesTheStatedValues : Prop :=
  (∀ p v i stack mem, ∃ s, s = State.resetWith p v i stack mem ∧ s.pc = 0x200 ∧ s.sp = 0 ∧ s.dt = ⟨0, 0⟩ ∧
    s.st = ⟨0, 0⟩ ∧ s.beep = false ∧ s.halt = none ∧ s.paused = s.input.pause ∧
    (∀ x y, s.fb.pixel x y = false) ∧ s.v = v ∧ s.i = i ∧ s.stack = stack ∧ s.mem = mem) ∧
  (List.range 80).map State.reset.mem.read = fontData ∧ fontData.length = 80

/-- The state after reset meets the invariant. -/
def Obligations.ResetMeetsTheInvariant : Prop := State.reset.Inv

/-- Every step keeps the invariant: memory stays canonical, `SP` stays in 0 to 16, the timers stay consistent, a
fault record keeps naming the word at `PC`, and a wait stays at its LDK (10_state.md R26, R30, R33, R34). -/
def Obligations.StepKeepsTheInvariant : Prop :=
  ∀ s t : State, s.Inv → step s = .next t → t.Inv

/-- Every step of every state and every handler gives a next state. A cycle that completes or faults does so by
40_dispatch_cycle.md R90, the fault recorded in `HALT` (log 10). An LDK with no key event does so by the model's choice
alone (DESIGN CHOICE, log 8): by R99 and decision D17 its cycle does not complete, and the model draws the wait out over
steps, each of which answers a next state. -/
def Obligations.EveryStepAnswersANextState : Prop :=
  (∀ s : State, ∃ t, step s = .next t) ∧ (∀ (i : Instr) (s : State), ∃ t, exec i s = .next t)

/-- The cycle of R90: when the word at `PC` decodes to `i`, the step runs `exec i` in that state, and then either the
instruction has raised a fault and nothing follows, or LDK waits and only the environment moves on, or `frame_done` is
raised and both timers are updated with the cycle's elapsed ticks. The sample of `PAUSE` and `frame_start` come first. -/
def Obligations.StepRunsTheDecodedInstruction : Prop :=
  ∀ (s : State) (w : Word) (i : Instr), s.halt = none → s.waiting = false → s.input.pause = false →
    fetchWord s = .ok w → decodeWord w = .ok i →
    ∃ t, exec i s.cycleStart = .next t ∧
      (t.halt.isSome = true → step s = .next t) ∧
      (t.halt = none → t.waiting = true → step s = .next t.takeInput) ∧
      (t.halt = none → t.waiting = false →
        step s = .next ((t.emit .frameDone).updateTimers s.input.elapsed).takeInput)

/-- The end-of-cycle update: `DT` and then `ST` are updated with the same elapsed ticks; `DT`'s notifications change no
state, `ST`'s Elapsed turns the tone on and its Stopped turns it off, Elapsed first; nothing else changes but the record
of output pulses (60_exceptions.md R194, R196, R197; decision D33; the trace is the model's, log 12). -/
def Obligations.EndOfCycleUpdatesBothTimers : Prop :=
  ∀ (s : State) (e : Nat),
    s.updateTimers e = { s with
      dt := (s.dt.update s.params.interval e).1
      st := (s.st.update s.params.interval e).1
      beep := match (s.st.update s.params.interval e).2 with
        | .quiet => s.beep | .elapsed => true | .elapsedStopped => false
      trace :=
        (match (s.st.update s.params.interval e).2 with
          | .quiet => [] | .elapsed => [.beepStart, .elapsed .st]
          | .elapsedStopped => [.beepEnd, .stopped .st, .beepStart, .elapsed .st]) ++
        (match (s.dt.update s.params.interval e).2 with
          | .quiet => [] | .elapsed => [.elapsed .dt] | .elapsedStopped => [.stopped .dt, .elapsed .dt]) ++ s.trace }

/-- A halted engine does nothing for ever (60_exceptions.md R185, R188; decision D22). -/
def Obligations.HaltedEngineNeverMoves : Prop :=
  ∀ (s : State) (k : Nat), s.halt.isSome = true → core.run k s = .next s

/-- While `PAUSE` is high the engine does no fetch, decode, execute or timer work: only the sample and the environment
change, however many cycles it lasts (10_state.md R32). -/
def Obligations.PausedEngineKeepsItsState : Prop :=
  ∀ (s : State) (fs rest : List Inputs), s.halt = none → s.waiting = false → s.inputs = fs ++ rest → fs ≠ [] →
    (∀ f ∈ fs, f.pause = true) →
    core.run fs.length s =
      .next { s with paused := true, inputs := rest, inputIndex := s.inputIndex + fs.length }

/-- Fetch (40_dispatch_cycle.md R91): the big-endian word at `PC`; under `fault` an `AddressFault` on the first byte
out of range, exactly when `PC` is `0x0FFF` or more; under `wrap12` always a word; odd addresses need nothing. -/
def Obligations.FetchIsBigEndianAndRangeChecked : Prop :=
  ∀ s : State,
    (s.params.addrPolicy = .fault → s.pc.toNat < 0x0FFF →
      ∃ w : Word, fetchWord s = .ok w ∧
        w.toNat = (s.mem.read s.pc.toNat).toNat * 256 + (s.mem.read (s.pc.toNat + 1)).toNat) ∧
    (s.params.addrPolicy = .fault → s.pc.toNat = 0x0FFF → fetchWord s = .error 0x1000) ∧
    (s.params.addrPolicy = .fault → 0x0FFF < s.pc.toNat → fetchWord s = .error s.pc) ∧
    (s.params.addrPolicy = .wrap12 →
      ∃ w : Word, fetchWord s = .ok w ∧
        w.toNat = (s.mem.read (s.pc.toNat % 4096)).toNat * 256 + (s.mem.read ((s.pc.toNat + 1) % 4096)).toNat)

/-- A fetch out of range halts the engine with code 4, the address of the instruction, no word, and the first
out-of-range address (60_exceptions.md R180, R184, R186; decisions D1, D22). -/
def Obligations.FetchFaultIsRecorded : Prop :=
  ∀ (s : State) (ea : Word), s.halt = none → s.waiting = false → s.input.pause = false → fetchWord s = .error ea →
    step s = .next { s.cycleStart with halt := some ⟨.addressFault, s.pc, none, some ea⟩ } ∧
    FaultCode.addressFault.number = 4

/-- `UnrecognizedInstruction` is raised at decode, under every policy: code 1 with the word, no handler run, nothing
else changed (60_exceptions.md R181). -/
def Obligations.UnrecognizedInstructionHalts : Prop :=
  ∀ (s : State) (w : Word) (e : DecodeError), s.halt = none → s.waiting = false → s.input.pause = false →
    fetchWord s = .ok w → decodeWord w = .error e →
    step s = .next { s.cycleStart with halt := some ⟨.unrecognizedInstruction, s.pc, some w, none⟩ } ∧
    FaultCode.unrecognizedInstruction.number = 1

/-- Every instruction is atomic: when its handler raises a fault it has changed nothing but `HALT` (00_scope.md R10). -/
def Obligations.FaultingHandlerChangesNothing : Prop :=
  ∀ (i : Instr) (s t : State) (r : FaultRecord), s.halt = none → exec i s = .next t → t.halt = some r →
    t = { s with halt := some r }

/-- The step in which the engine halts leaves every piece of the engine's state as it was when the cycle began, `PC`
included, and updates no timer; the model's own fields `paused`, `waiting` and `trace` show that a cycle was begun
(60_exceptions.md R185, 40_dispatch_cycle.md R96; decision D22). -/
def Obligations.HaltingStepIsPrecise : Prop :=
  ∀ (s t : State) (r : FaultRecord), s.halt = none → step s = .next t → t.halt = some r →
    r.pc = s.pc ∧ t = { s with halt := some r, paused := false, waiting := false, trace := t.trace }

/-- Which handler can raise which fault, and the record it leaves: CALL only `StackOverflow`, RET only
`StackUnderflow`, DRW, LDBCD, LDRW and LDRS only `AddressFault`, the other 29 none (60_exceptions.md R187, R186). -/
def Obligations.HandlersRaiseOnlyTheirFault : Prop :=
  ∀ (i : Instr) (s t : State) (r : FaultRecord), s.halt = none → exec i s = .next t → t.halt = some r →
    r.pc = s.pc ∧ r.word = some (encode i) ∧
    ((dispatchIndex i = 4 ∧ r.code = .stackOverflow ∧ r.addr = none) ∨
     (dispatchIndex i = 2 ∧ r.code = .stackUnderflow ∧ r.addr = none) ∨
     (dispatchIndex i ∈ [23, 32, 33, 34] ∧ r.code = .addressFault ∧ ∃ ea, r.addr = some ea ∧ 4096 ≤ ea.toNat))

/-- Which instruction can change which piece of state: the column "written by" of 10_state.md section 9. The clauses on
`waiting`, `params`, `inputs`, `inputIndex` and `trace` are about the model's own fields (log 8, log 4, log 6, log 12). -/
def Obligations.OnlyListedInstructionsWrite : Prop :=
  ∀ (i : Instr) (s t : State), exec i s = .next t →
    (t.v ≠ s.v → dispatchIndex i ∈ [8, 9, 10, 11, 12, 13, 14, 15, 16, 17, 18, 22, 23, 26, 27, 34]) ∧
    (t.i ≠ s.i → dispatchIndex i ∈ [20, 30, 31]) ∧
    (t.sp ≠ s.sp → dispatchIndex i ∈ [2, 4]) ∧
    (t.stack ≠ s.stack → dispatchIndex i = 4) ∧
    (t.dt ≠ s.dt → dispatchIndex i = 28) ∧
    (t.st ≠ s.st → dispatchIndex i = 29) ∧
    (t.mem ≠ s.mem → dispatchIndex i ∈ [32, 33]) ∧
    (t.fb ≠ s.fb → dispatchIndex i ∈ [1, 23]) ∧
    (t.halt ≠ s.halt → dispatchIndex i ∈ [2, 4, 23, 32, 33, 34]) ∧
    (t.waiting ≠ s.waiting → dispatchIndex i = 27) ∧
    t.beep = s.beep ∧ t.paused = s.paused ∧ t.params = s.params ∧ t.inputs = s.inputs ∧
    t.inputIndex = s.inputIndex ∧ t.trace = s.trace

/-- `VF` changes only under the six flag-writing opcodes, or when it is named as an ordinary destination; and each of
the six leaves 0 or 1 in it unless it faults (10_state.md R22). -/
def Obligations.FlagRegisterDiscipline : Prop :=
  ∀ (i : Instr) (s t : State), s.halt = none → exec i s = .next t →
    (dispatchIndex i ∈ [14, 15, 16, 17, 18, 23] → t.halt = none → t.readV 15 = 0 ∨ t.readV 15 = 1) ∧
    (dispatchIndex i ∉ [14, 15, 16, 17, 18, 23] → t.readV 15 ≠ s.readV 15 →
      (∃ kk, i = .ldKk 15 kk ∨ i = .addKk 15 kk ∨ i = .rnd 15 kk) ∨
      (∃ y, i = .ldVy 15 y ∨ i = .or 15 y ∨ i = .and 15 y ∨ i = .xor 15 y) ∨
      i = .ldvdt 15 ∨ i = .ldk 15 ∨ i = .ldrs 15)

/-- Only RND, SKP, SKNP and LDK see the environment: any other instruction does the same whatever its answers are
(10_state.md section 9, the `env` rows). -/
def Obligations.OtherInstructionsIgnoreTheEnvironment : Prop :=
  ∀ (i : Instr) (s t : State) (fs : List Inputs) (n : Nat), dispatchIndex i ∉ [22, 24, 25, 27] → exec i s = .next t →
    exec i { s with inputs := fs, inputIndex := n } = .next { t with inputs := fs, inputIndex := n }

/-- The program counter (40_dispatch_cycle.md R94): JP, CALL, RET and JPV0 leave `PC` where they put it, except that a
violating CALL or RET under `permissive` advances; every other handler that completes advances by 2, a skip by 2 or,
past one instruction, by 4. An LDK that waits does not complete (log 8). The skip amount, the sum of JPV0 and the
advance of a violating CALL or RET are the spec's decisions D11, D34 and D3. -/
def Obligations.ProgramCounterUpdate : Prop :=
  (∀ (i : Instr) (s t : State), s.halt = none → exec i s = .next t → t.halt = none → t.waiting = false →
    dispatchIndex i ∉ [2, 3, 4, 21] →
    t.pc = s.pc + 2 ∨ (dispatchIndex i ∈ [5, 6, 7, 19, 24, 25] ∧ t.pc = s.pc + 4)) ∧
  (∀ (nnn : Addr12) (n : Nibble) (s t : State), exec (.jp nnn) s = .next t → t.pc.toNat = nnn.toNat) ∧
  (∀ (nnn : Addr12) (s t : State), exec (.jpv0 nnn) s = .next t → t.pc.toNat = nnn.toNat + (s.readV 0).toNat) ∧
  (∀ (nnn : Addr12) (s t : State), exec (.call nnn) s = .next t →
    (s.sp.toNat < 16 → t.pc.toNat = nnn.toNat) ∧
    (s.sp.toNat = 16 → s.params.stackPolicy = .permissive → t = { s with pc := s.pc + 2 })) ∧
  (∀ (n : Nibble) (s t : State), exec (.ret n) s = .next t →
    (∀ k : Fin 16, s.sp.toNat = k.val + 1 → t.pc = s.stack[k.val]) ∧
    (s.sp.toNat = 0 → s.params.stackPolicy = .permissive → t = { s with pc := s.pc + 2 }))

/-! Control flow. -/

/-- SYS is a no-op (41_flow.md R111). -/
def Obligations.SysOnlyAdvances : Prop :=
  ∀ (nnn : Addr12) (s : State),
    (sysFieldOk nnn = true → Encoded (.sys nnn) nnn.toNat 0) ∧
    exec (.sys nnn) s = .next { s with pc := s.pc + 2 }

/-- JP (41_flow.md R113): any target, no check. -/
def Obligations.JpSetsPc : Prop :=
  ∀ (nnn : Addr12) (s : State),
    Encoded (.jp nnn) (0x1000 + nnn.toNat) 3 ∧
    exec (.jp nnn) s = .next { s with pc := BitVec.ofNat 16 nnn.toNat }

/-- JPV0 adds `V0`, the sum not reduced to 12 bits (41_flow.md R119; decision D34). -/
def Obligations.Jpv0AddsV0 : Prop :=
  ∀ (nnn : Addr12) (s : State),
    Encoded (.jpv0 nnn) (0xB000 + nnn.toNat) 21 ∧
    ∃ target : Word, target.toNat = nnn.toNat + (s.readV 0).toNat ∧
      exec (.jpv0 nnn) s = .next { s with pc := target }

/-- RET (41_flow.md R112): pops the newest return address, which stays in its entry; on an empty stack the fault with
code 3 under `strict` and a no-op under `permissive`. -/
def Obligations.RetPopsOrUnderflows : Prop :=
  ∀ (n : Nibble) (s : State),
    Encoded (.ret n) (n.toNat * 256 + 0xEE) 2 ∧
    (∀ k : Fin 16, s.sp.toNat = k.val + 1 →
      exec (.ret n) s = .next { s with pc := s.stack[k.val], sp := BitVec.ofNat 8 k.val }) ∧
    (s.sp = 0 → s.params.stackPolicy = .strict →
      exec (.ret n) s =
        .next { s with halt := some ⟨.stackUnderflow, s.pc, some (encode (.ret n)), none⟩ }) ∧
    (s.sp = 0 → s.params.stackPolicy = .permissive → exec (.ret n) s = .next { s with pc := s.pc + 2 }) ∧
    FaultCode.stackUnderflow.number = 3

/-- CALL pushes the address of the instruction after it and jumps; on a full stack the fault with code 2 under `strict`
and a no-op under `permissive` (41_flow.md R114, 60_exceptions.md R182; decisions D2, D3). -/
def Obligations.CallPushesOrOverflows : Prop :=
  ∀ (nnn : Addr12) (s : State),
    Encoded (.call nnn) (0x2000 + nnn.toNat) 4 ∧
    (∀ k : Fin 16, s.sp.toNat = k.val →
      exec (.call nnn) s = .next { s with
        pc := BitVec.ofNat 16 nnn.toNat, sp := BitVec.ofNat 8 (k.val + 1), stack := s.stack.set k.val (s.pc + 2) }) ∧
    (s.sp.toNat = 16 → s.params.stackPolicy = .strict →
      exec (.call nnn) s =
        .next { s with halt := some ⟨.stackOverflow, s.pc, some (encode (.call nnn)), none⟩ }) ∧
    (s.sp.toNat = 16 → s.params.stackPolicy = .permissive →
      exec (.call nnn) s = .next { s with pc := s.pc + 2 }) ∧
    FaultCode.stackOverflow.number = 2

/-- A CALL and the RET that ends its subroutine bring `PC` behind the CALL and `SP` back, and leave all else alone but
the pushed entry (10_state.md R28; decision D2). -/
def Obligations.RetUndoesCall : Prop :=
  ∀ (nnn : Addr12) (n : Nibble) (s : State), s.sp.toNat < 16 →
    ∃ t u, exec (.call nnn) s = .next t ∧ exec (.ret n) t = .next u ∧
      u = { s with pc := s.pc + 2, stack := u.stack } ∧
      ∀ k : Fin 16, k.val ≠ s.sp.toNat → u.stack[k.val] = s.stack[k.val]

/-- The four register skips: two operands compared, one instruction passed over or none, no register touched
(41_flow.md R115 to R118, 40_dispatch_cycle.md R95; decisions D11, D35). -/
def Obligations.SkipsCompareAndPassOver : Prop :=
  ∀ (x y : Reg) (kk : Byte) (n : Nibble) (s : State),
    Encoded (.seKk x kk) (0x3000 + x.val * 256 + kk.toNat) 5 ∧
    exec (.seKk x kk) s = .next { s with pc := s.pc + if s.readV x = kk then 4 else 2 } ∧
    Encoded (.sneKk x kk) (0x4000 + x.val * 256 + kk.toNat) 6 ∧
    exec (.sneKk x kk) s = .next { s with pc := s.pc + if s.readV x = kk then 2 else 4 } ∧
    Encoded (.seVy x y n) (0x5000 + x.val * 256 + y.val * 16 + n.toNat) 7 ∧
    exec (.seVy x y n) s = .next { s with pc := s.pc + if s.readV x = s.readV y then 4 else 2 } ∧
    Encoded (.sneVy x y n) (0x9000 + x.val * 256 + y.val * 16 + n.toNat) 19 ∧
    exec (.sneVy x y n) s = .next { s with pc := s.pc + if s.readV x = s.readV y then 2 else 4 }

/-! Registers and arithmetic. -/

/-- LD_KK (42_alu.md R131). -/
def Obligations.LdKkLoadsTheImmediate : Prop :=
  ∀ (x : Reg) (kk : Byte) (s : State),
    Encoded (.ldKk x kk) (0x6000 + x.val * 256 + kk.toNat) 8 ∧
    ∃ t, exec (.ldKk x kk) s = .next t ∧ t.readV x = kk ∧ t.pc = s.pc + 2 ∧ RegisterFrame s t [x]

/-- ADD_KK wraps modulo 256 and writes no flag (42_alu.md R132; decision D10). -/
def Obligations.AddKkWrapsWithoutFlag : Prop :=
  ∀ (x : Reg) (kk : Byte) (s : State),
    Encoded (.addKk x kk) (0x7000 + x.val * 256 + kk.toNat) 9 ∧
    ∃ t, exec (.addKk x kk) s = .next t ∧ (t.readV x).toNat = ((s.readV x).toNat + kk.toNat) % 256 ∧
      t.pc = s.pc + 2 ∧ RegisterFrame s t [x]

/-- LD_VY, OR, AND and XOR write `V[X]` alone: no flag (42_alu.md R133 to R136; decision D7). -/
def Obligations.CopyAndLogicWriteNoFlag : Prop :=
  ∀ (x y : Reg) (s : State),
    (Encoded (.ldVy x y) (0x8000 + x.val * 256 + y.val * 16) 10 ∧
      ∃ t, exec (.ldVy x y) s = .next t ∧ t.readV x = s.readV y ∧ t.pc = s.pc + 2 ∧ RegisterFrame s t [x]) ∧
    (Encoded (.or x y) (0x8001 + x.val * 256 + y.val * 16) 11 ∧
      ∃ t, exec (.or x y) s = .next t ∧ t.readV x = s.readV x ||| s.readV y ∧ t.pc = s.pc + 2 ∧
        RegisterFrame s t [x]) ∧
    (Encoded (.and x y) (0x8002 + x.val * 256 + y.val * 16) 12 ∧
      ∃ t, exec (.and x y) s = .next t ∧ t.readV x = s.readV x &&& s.readV y ∧ t.pc = s.pc + 2 ∧
        RegisterFrame s t [x]) ∧
    (Encoded (.xor x y) (0x8003 + x.val * 256 + y.val * 16) 13 ∧
      ∃ t, exec (.xor x y) s = .next t ∧ t.readV x = s.readV x ^^^ s.readV y ∧ t.pc = s.pc + 2 ∧
        RegisterFrame s t [x])

/-- ADD (42_alu.md R137): the sum modulo 256, `VF` the carry; for `X = 15` the flag is what stays, which is the spec's
decision D8. -/
def Obligations.AddSetsCarry : Prop :=
  ∀ (x y : Reg) (s : State),
    Encoded (.add x y) (0x8004 + x.val * 256 + y.val * 16) 14 ∧
    ∃ t, exec (.add x y) s = .next t ∧
      (x ≠ 15 → (t.readV x).toNat = ((s.readV x).toNat + (s.readV y).toNat) % 256) ∧
      t.readV 15 = (if 256 ≤ (s.readV x).toNat + (s.readV y).toNat then 1 else 0) ∧
      t.pc = s.pc + 2 ∧ RegisterFrame s t [x, 15]

/-- SUB and SUBN: the difference modulo 256, `VF` 1 when no borrow was needed, equal operands included; for `X = 15` the
flag is what stays (42_alu.md R138, R140; decisions D8, D9). -/
def Obligations.SubAndSubnSetNotBorrow : Prop :=
  ∀ (x y : Reg) (s : State),
    (Encoded (.sub x y) (0x8005 + x.val * 256 + y.val * 16) 15 ∧
      ∃ t, exec (.sub x y) s = .next t ∧
        (x ≠ 15 → (t.readV x).toNat = ((s.readV x).toNat + 256 - (s.readV y).toNat) % 256) ∧
        t.readV 15 = (if (s.readV y).toNat ≤ (s.readV x).toNat then 1 else 0) ∧
        t.pc = s.pc + 2 ∧ RegisterFrame s t [x, 15]) ∧
    (Encoded (.subn x y) (0x8007 + x.val * 256 + y.val * 16) 17 ∧
      ∃ t, exec (.subn x y) s = .next t ∧
        (x ≠ 15 → (t.readV x).toNat = ((s.readV y).toNat + 256 - (s.readV x).toNat) % 256) ∧
        t.readV 15 = (if (s.readV x).toNat ≤ (s.readV y).toNat then 1 else 0) ∧
        t.pc = s.pc + 2 ∧ RegisterFrame s t [x, 15])

/-- SHR and SHL (42_alu.md R139, R141): `V[X]` shifted in place by one, whatever `Y` is, `VF` the bit shifted out; for
`X = 15` the flag is what stays (decision D8). -/
def Obligations.ShiftsReportTheBitShiftedOut : Prop :=
  ∀ (x y : Reg) (s : State),
    (Encoded (.shr x y) (0x8006 + x.val * 256 + y.val * 16) 16 ∧
      ∃ t, exec (.shr x y) s = .next t ∧
        (x ≠ 15 → (t.readV x).toNat = (s.readV x).toNat / 2) ∧
        (t.readV 15).toNat = (s.readV x).toNat % 2 ∧
        t.pc = s.pc + 2 ∧ RegisterFrame s t [x, 15]) ∧
    (Encoded (.shl x y) (0x800E + x.val * 256 + y.val * 16) 18 ∧
      ∃ t, exec (.shl x y) s = .next t ∧
        (x ≠ 15 → (t.readV x).toNat = (s.readV x).toNat * 2 % 256) ∧
        (t.readV 15).toNat = (s.readV x).toNat / 128 ∧
        t.pc = s.pc + 2 ∧ RegisterFrame s t [x, 15])

/-- RND: the free random byte ANDed with the immediate, so no bit outside the immediate is ever set (42_alu.md R142;
decisions D18, D35). It holds for every answer of the environment. -/
def Obligations.RndMasksTheRandomByte : Prop :=
  ∀ (x : Reg) (kk : Byte) (s : State),
    Encoded (.rnd x kk) (0xC000 + x.val * 256 + kk.toNat) 22 ∧
    ∃ t, exec (.rnd x kk) s = .next t ∧ t.readV x = s.input.rnd &&& kk ∧ t.readV x &&& ~~~kk = 0 ∧
      t.pc = s.pc + 2 ∧ RegisterFrame s t [x]

/-! The address register and memory. -/

/-- LDI, ADDI and LDF write `I` alone: a zero-extended immediate, a sum that wraps at 16 bits with no flag, five times
the unmasked digit (43_index_memory.md R151, R152, R153; decisions D13, D15, D35). -/
def Obligations.AddressRegisterWrites : Prop :=
  ∀ (nnn : Addr12) (x : Reg) (s : State),
    Encoded (.ldi nnn) (0xA000 + nnn.toNat) 20 ∧
    exec (.ldi nnn) s = .next { s with i := BitVec.ofNat 16 nnn.toNat, pc := s.pc + 2 } ∧
    Encoded (.addi x) (0xF01E + x.val * 256) 30 ∧
    exec (.addi x) s =
      .next { s with i := BitVec.ofNat 16 ((s.i.toNat + (s.readV x).toNat) % 65536), pc := s.pc + 2 } ∧
    Encoded (.ldf x) (0xF029 + x.val * 256) 31 ∧
    exec (.ldf x) s = .next { s with i := BitVec.ofNat 16 (5 * (s.readV x).toNat), pc := s.pc + 2 }

/-- LDBCD stores hundreds, tens and ones at `I`, `I+1`, `I+2` and leaves `I`, the registers and every other byte alone
(43_index_memory.md R154; decisions D12, D35). -/
def Obligations.LdbcdStoresThreeDigits : Prop :=
  ∀ (x : Reg) (s : State), s.mem.wf = true → AccessOk s 3 →
    Encoded (.ldbcd x) (0xF033 + x.val * 256) 32 ∧
    ∃ t, exec (.ldbcd x) s = .next t ∧
      (t.mem.read (memIndex (effectiveAddress s.i 0))).toNat = (s.readV x).toNat / 100 ∧
      (t.mem.read (memIndex (effectiveAddress s.i 1))).toNat = (s.readV x).toNat / 10 % 10 ∧
      (t.mem.read (memIndex (effectiveAddress s.i 2))).toNat = (s.readV x).toNat % 10 ∧
      t.pc = s.pc + 2 ∧ StoreFrame s t 3

/-- LDRW stores `V0..VX` in ascending order from `I` upward and leaves `I`, the registers and every other byte alone
(43_index_memory.md R155; decision D12). -/
def Obligations.LdrwStoresTheRegisterBlock : Prop :=
  ∀ (x : Reg) (s : State), s.mem.wf = true → AccessOk s (x.val + 1) →
    Encoded (.ldrw x) (0xF055 + x.val * 256) 33 ∧
    ∃ t, exec (.ldrw x) s = .next t ∧
      (∀ k : Reg, k.val ≤ x.val → t.mem.read (memIndex (effectiveAddress s.i k.val)) = s.readV k) ∧
      t.pc = s.pc + 2 ∧ StoreFrame s t (x.val + 1)

/-- LDRS loads `V0..VX` from `I` upward; the registers above `X`, `I` and all of memory are unchanged
(43_index_memory.md R156; decision D12). -/
def Obligations.LdrsLoadsTheRegisterBlock : Prop :=
  ∀ (x : Reg) (s : State), AccessOk s (x.val + 1) →
    Encoded (.ldrs x) (0xF065 + x.val * 256) 34 ∧
    ∃ t, exec (.ldrs x) s = .next t ∧
      (∀ k : Reg, k.val ≤ x.val → t.readV k = s.mem.read (memIndex (effectiveAddress s.i k.val))) ∧
      (∀ k : Reg, x.val < k.val → t.readV k = s.readV k) ∧
      t.pc = s.pc + 2 ∧ t = { s with v := t.v, pc := t.pc } ∧ ∀ a, t.mem.read a = s.mem.read a

/-- An access out of range raises `AddressFault` before anything changes, with the first address out of range: `I`
itself, or `0x1000` where `I` is in range (60_exceptions.md R184, R186, 20_memory.md R54; decisions D1, D22). -/
def Obligations.OutOfRangeAccessRaisesAddressFault : Prop :=
  ∀ (i : Instr) (n : Nat) (s : State), ¬ AccessOk s n →
    ((∃ x y m, i = .drw x y m ∧ n = m.val) ∨ (∃ x, i = .ldbcd x ∧ n = 3) ∨
      (∃ x, i = .ldrw x ∧ n = x.val + 1) ∨ (∃ x, i = .ldrs x ∧ n = x.val + 1)) →
    exec i s = .next { s with
      halt := some ⟨.addressFault, s.pc, some (encode i), some (if s.i.toNat < 4096 then 0x1000 else s.i)⟩ }

/-- LDRW and then LDRS with the same `X` and `I` restores the registers, whatever they were made in between
(43_index_memory.md R156, corner cases). -/
def Obligations.LdrsRestoresWhatLdrwStored : Prop :=
  ∀ (x : Reg) (s : State) (v : Vector Byte 16), s.mem.wf = true → AccessOk s (x.val + 1) →
    ∃ t u, exec (.ldrw x) s = .next t ∧ exec (.ldrs x) { t with v := v } = .next u ∧
      ∀ k : Reg, u.readV k = if k.val ≤ x.val then s.readV k else v[k.val]

/-- A store is seen by the very next fetch: LDRW over the word after itself puts `V0` and `V1` there as the next
instruction word, high byte first (20_memory.md R62, R55; decision D32). -/
def Obligations.StoreIsSeenByTheNextFetch : Prop :=
  ∀ (x : Reg) (s : State), s.mem.wf = true → 1 ≤ x.val → s.i = s.pc + 2 → AccessOk s (x.val + 1) →
    ∃ t, exec (.ldrw x) s = .next t ∧ fetchWord t = .ok (joinBytes (s.readV 0) (s.readV 1))

/-- The loader's contract: a program of at most 3584 bytes stands byte for byte from `LOAD_ADDR`, every other byte and
all the rest of the state as before, `PC` at its first byte; a longer one is refused (70_reset_and_hazards.md R213;
decision D24). -/
def Obligations.LoaderCopiesTheProgram : Prop :=
  ∀ (s : State) (program : List Byte), s.mem.wf = true →
    (3584 < program.length → s.load program = none) ∧
    (program.length ≤ 3584 → ∃ t, s.load program = some t ∧ t = { s with pc := 0x200, mem := t.mem } ∧
      t.mem.wf = true ∧
      ∀ a, t.mem.read a =
        if 0x200 ≤ a ∧ a < 0x200 + program.length then program.getD (a - 0x200) 0 else s.mem.read a)

/-! Display. -/

/-- CLS (44_display.md R165, R161): every pixel unset, `VF` and all the rest unchanged. -/
def Obligations.ClsClearsEveryPixel : Prop :=
  ∀ (n : Nibble) (s : State),
    Encoded (.cls n) (n.toNat * 256 + 0xE0) 1 ∧
    ∃ t, exec (.cls n) s = .next t ∧ (∀ x y, t.fb.pixel x y = false) ∧ t.pc = s.pc + 2 ∧
      t = { s with fb := t.fb, pc := t.pc } ∧ ∀ a, t.mem.read a = s.mem.read a

/-- DRW blits the `N` bytes at `I` with origin `(V[X], V[Y])` and writes the collision to `VF`; with `N = 0` it draws
nothing, cannot fault and leaves `VF` 0 (44_display.md R166; decision D27). -/
def Obligations.DrwDrawsTheBytesAtI : Prop :=
  ∀ (x y : Reg) (n : Fin 16) (s : State), AccessOk s n.val →
    Encoded (.drw x y n) (0xD000 + x.val * 256 + y.val * 16 + n.val) 23 ∧
    ∃ d : Blit, d = drawSprite s.fb (s.readV x) (s.readV y)
        ((List.range n.val).map fun k => s.mem.read (memIndex (effectiveAddress s.i k))) ∧
      exec (.drw x y n) s = .next { s with
        fb := d.fb, v := s.v.set 15 (if d.collided then 1 else 0), pc := s.pc + 2 } ∧
      (n.val = 0 → d.fb = s.fb ∧ d.collided = false)

/-- The blit's two loops (44_display.md R162) come to one exclusive-OR of every pixel with the sprite bit over it, and
a collision exactly where a pixel set before the draw had a set bit over it, which is R163, marked by the spec as derived
from R162. -/
def Obligations.DrawSpriteIsExclusiveOr : Prop :=
  ∀ (f : FrameBuffer) (ox oy : Byte) (bytes : List Byte), bytes.length ≤ 15 →
    (∀ x y, (drawSprite f ox oy bytes).fb.pixel x y = (f.pixel x y ^^ spriteCovers ox oy bytes x y)) ∧
    ((drawSprite f ox oy bytes).collided = true ↔
      ∃ x y, f.pixel x y = true ∧ spriteCovers ox oy bytes x y = true)

/-- The same sprite drawn twice at the same origin restores the screen, and the second draw collides exactly where the
first one left a pixel of the sprite set (44_display.md R164 (a)). -/
def Obligations.DrawingTwiceRestoresTheScreen : Prop :=
  ∀ (f : FrameBuffer) (ox oy : Byte) (bytes : List Byte), bytes.length ≤ 15 →
    (drawSprite (drawSprite f ox oy bytes).fb ox oy bytes).fb = f ∧
    ((drawSprite (drawSprite f ox oy bytes).fb ox oy bytes).collided = true ↔
      ∃ x y, f.pixel x y = false ∧ spriteCovers ox oy bytes x y = true)

/-! Keypad and timers. -/

/-- SKP and SKNP ask once for the key numbered by the value of `V[X]`; for a number of 16 or more the answer is a free
Boolean (45_keypad_timer_ops.md R171, R172, 60_exceptions.md R200; decision D16). -/
def Obligations.KeySkipsFollowTheKeypad : Prop :=
  ∀ (x : Reg) (kk : Byte) (s : State), ∃ down : Bool,
    (∀ k : Fin 16, (s.readV x).toNat = k.val → down = s.input.keysDown[k.val]) ∧
    (16 ≤ (s.readV x).toNat → down = s.input.keyBeyond) ∧
    Encoded (.skp x) (0xE09E + x.val * 256) 24 ∧
    exec (.skp x) s = .next { s with pc := s.pc + if down then 4 else 2 } ∧
    (kk ≠ 0x9E → Encoded (.sknp x kk) (0xE000 + x.val * 256 + kk.toNat) 25) ∧
    exec (.sknp x kk) s = .next { s with pc := s.pc + if down then 2 else 4 }

/-- LDVDT copies `DT.Value`; the timer is not touched (45_keypad_timer_ops.md R173; decision D35). -/
def Obligations.LdvdtReadsTheDelayTimer : Prop :=
  ∀ (x : Reg) (s : State),
    Encoded (.ldvdt x) (0xF007 + x.val * 256) 26 ∧
    ∃ t, exec (.ldvdt x) s = .next t ∧ t.readV x = s.dt.value ∧ t.pc = s.pc + 2 ∧ RegisterFrame s t [x]

/-- LDK stores the key that has gone down and completes; where it had been waiting, the step with the key ends the wait
and the cycle's single timer update gets the elapsed ticks of the whole wait (45_keypad_timer_ops.md R174; decision D17;
one answer for the whole wait, log 8). -/
def Obligations.LdkStoresTheKeyAndEndsItsWait : Prop :=
  ∀ (x : Reg) (k : Key) (s : State), s.input.keyEvent = some k →
    Encoded (.ldk x) (0xF00A + x.val * 256) 27 ∧
    (∃ t, exec (.ldk x) s = .next t ∧ (t.readV x).toNat = k.val ∧ t.pc = s.pc + 2 ∧ RegisterFrame s t [x]) ∧
    (∀ w, s.halt = none → s.waiting = true → fetchWord s = .ok w → decodeWord w = .ok (.ldk x) →
      ∃ t, step s = .next t ∧ (t.readV x).toNat = k.val ∧ t.pc = s.pc + 2 ∧ t.waiting = false ∧
        t.dt = (s.dt.update s.params.interval s.input.elapsed).1 ∧
        t.st = (s.st.update s.params.interval s.input.elapsed).1)

/-- LDK's wait: however many steps bring no key, and whatever `PAUSE` does meanwhile, no register, memory byte, pixel
or timer changes and `PC` stays at the LDK; only the environment moves on (40_dispatch_cycle.md R99; decision D17; the
wait's steps are the model's, log 8). -/
def Obligations.LdkWaitChangesNothing : Prop :=
  ∀ (s : State) (w : Word) (x : Reg) (fs rest : List Inputs), s.halt = none → s.waiting = true → s.paused = false →
    fetchWord s = .ok w → decodeWord w = .ok (.ldk x) → s.inputs = fs ++ rest → (∀ f ∈ fs, f.keyEvent = none) →
    core.run fs.length s = .next { s with inputs := rest, inputIndex := s.inputIndex + fs.length }

/-- LDDT and LDST write the value and arm a full interval where it is not zero; no notification, and `BEEP` stays
(45_keypad_timer_ops.md R175, R176, 60_exceptions.md R191; decision D19). -/
def Obligations.TimerWritesArmAFullInterval : Prop :=
  ∀ (x : Reg) (s : State), ∃ t : Timer, t.value = s.readV x ∧
    (s.readV x = 0 → t.remaining = 0) ∧ (s.readV x ≠ 0 → t.remaining = (s.params.interval : Int)) ∧
    Encoded (.lddt x) (0xF015 + x.val * 256) 28 ∧
    exec (.lddt x) s = .next { s with dt := t, pc := s.pc + 2 } ∧
    Encoded (.ldst x) (0xF018 + x.val * 256) 29 ∧
    exec (.ldst x) s = .next { s with st := t, pc := s.pc + 2 }

/-- `Update(e)` of 60_exceptions.md R192, case by case, with its notifications. -/
def Obligations.TimerUpdateCases : Prop :=
  ∀ (t : Timer) (interval e : Nat),
    (t.value = 0 → t.update interval e = (t, .quiet)) ∧
    (t.value ≠ 0 → (e : Int) < t.remaining →
      t.update interval e = (⟨t.value, t.remaining - e⟩, .quiet)) ∧
    (t.value = 1 → t.remaining ≤ (e : Int) → t.update interval e = (⟨0, 0⟩, .elapsedStopped)) ∧
    (1 < t.value.toNat → t.remaining ≤ (e : Int) →
      t.update interval e =
        (⟨BitVec.ofNat 8 (t.value.toNat - 1), interval + (t.remaining - e)⟩, .elapsed))

/-- Long-run accuracy: over any sequence of cycles of at most one interval each, a timer loaded with `v` has counted
down once for every full interval of the total elapsed ticks, and stays at zero (60_exceptions.md R195). -/
def Obligations.TimerCountsFullIntervals : Prop :=
  ∀ (interval : Nat) (v : Byte) (es : List Nat), 0 < interval → (∀ e ∈ es, e ≤ interval) →
    (es.foldl (fun t e => (Timer.update t interval e).1) (Timer.load interval v)).value.toNat =
      v.toNat - es.sum / interval

/-- `DT.Value` falls by at most one in a step, and never rises, unless the instruction that runs is LDDT
(70_reset_and_hazards.md R218, 60_exceptions.md R195). -/
def Obligations.DelayTimerFallsByAtMostOne : Prop :=
  ∀ s t : State, step s = .next t → (∀ w x, fetchWord s = .ok w → decodeWord w ≠ .ok (.lddt x)) →
    t.dt.value.toNat ≤ s.dt.value.toNat ∧ s.dt.value.toNat ≤ t.dt.value.toNat + 1

/-- A step that turns the tone on leaves the sound timer running, and a step that turns it off leaves the sound timer
at zero (10_state.md R31, 60_exceptions.md R197; decision D33). -/
def Obligations.ToneFollowsTheSoundTimer : Prop :=
  ∀ s t : State, step s = .next t →
    (s.beep = false → t.beep = true → t.st.value ≠ 0) ∧ (s.beep = true → t.beep = false → t.st.value = 0)
end

