-- ==== Sys2Proof/Laws/Decode.lean ====
section
/-! SUPPORT. The fields of an encoded word: what each field of `encodeNNN`, `encodeXKK`, `encodeXYN` and
`encodeClass0` is, so that no later proof computes with a whole word. -/

namespace Sys2Proof

theorem encodeNNN_toNat {c : Nat} (hc : c < 16) (nnn : Addr12) : (encodeNNN c nnn).toNat = c * 4096 + nnn.toNat := by
  simp [encodeNNN]
  omega

theorem encodeXKK_toNat {c kk : Nat} (hc : c < 16) (hk : kk < 256) (x : Reg) :
    (encodeXKK c x kk).toNat = c * 4096 + x.val * 256 + kk := by
  simp [encodeXKK]
  omega

theorem encodeXYN_toNat {c n : Nat} (hc : c < 16) (hn : n < 16) (x y : Reg) :
    (encodeXYN c x y n).toNat = c * 4096 + x.val * 256 + y.val * 16 + n := by
  simp [encodeXYN]
  omega

theorem encodeClass0_toNat {b : Nat} (hb : b < 256) (n : Nibble) : (encodeClass0 n b).toNat = n.toNat * 256 + b := by
  simp [encodeClass0]
  omega

/-! Fields as quotients and remainders of the word's number. -/

theorem op1_eq (w : Word) : op1 w = w.toNat / 4096 := by
  have := w.isLt
  simp [op1, bits]
  omega

theorem op2_eq (w : Word) : op2 w = w.toNat % 16 := by simp [op2, bits]

theorem op3_eq (w : Word) : op3 w = w.toNat % 256 := by simp [op3, bits]

theorem fieldX_val (w : Word) : (fieldX w).val = w.toNat / 256 % 16 := by simp [fieldX, bits]

theorem fieldY_val (w : Word) : (fieldY w).val = w.toNat / 16 % 16 := by simp [fieldY, bits]

theorem fieldN_val (w : Word) : (fieldN w).val = w.toNat % 16 := by simp [fieldN, bits]

theorem fieldKK_toNat (w : Word) : (fieldKK w).toNat = w.toNat % 256 := by simp [fieldKK, bits]

theorem fieldNNN_toNat (w : Word) : (fieldNNN w).toNat = w.toNat % 4096 := by simp [fieldNNN, bits]

theorem ignoredHigh_toNat (w : Word) : (ignoredHigh w).toNat = w.toNat / 256 % 16 := by simp [ignoredHigh, bits]

theorem ignoredLow_toNat (w : Word) : (ignoredLow w).toNat = w.toNat % 16 := by simp [ignoredLow, bits]

/-- The word of two bytes, as a number (R55). -/
theorem joinBytes_toNat (hi lo : Byte) : (joinBytes hi lo).toNat = hi.toNat * 256 + lo.toNat := by
  have := hi.isLt
  have := lo.isLt
  simp [joinBytes]
  omega

/-- Splitting a word into its bytes and joining them gives the word back. -/
theorem joinBytes_high_low (w : Word) : joinBytes (highByte w) (lowByte w) = w := by
  apply BitVec.eq_of_toNat_eq
  have := w.isLt
  simp [joinBytes_toNat, highByte, lowByte, bits]
  omega

end Sys2Proof
end

