-- ==== Sys2Proof/Laws/State.lean ====
section
/-! SUPPORT. For every named update of State, what each field is afterwards: one lemma for each field and update, true
by rfl, so that no later proof unfolds a record update. -/

namespace Sys2Proof.Machine

variable (s : State)

@[simp] theorem State.setV_v (x : Reg) (b : Byte) : (s.setV x b).v = s.v.set x.val b := rfl
@[simp] theorem State.setV_i (x : Reg) (b : Byte) : (s.setV x b).i = s.i := rfl
@[simp] theorem State.setV_pc (x : Reg) (b : Byte) : (s.setV x b).pc = s.pc := rfl
@[simp] theorem State.setV_sp (x : Reg) (b : Byte) : (s.setV x b).sp = s.sp := rfl
@[simp] theorem State.setV_stack (x : Reg) (b : Byte) : (s.setV x b).stack = s.stack := rfl
@[simp] theorem State.setV_dt (x : Reg) (b : Byte) : (s.setV x b).dt = s.dt := rfl
@[simp] theorem State.setV_st (x : Reg) (b : Byte) : (s.setV x b).st = s.st := rfl
@[simp] theorem State.setV_paused (x : Reg) (b : Byte) : (s.setV x b).paused = s.paused := rfl
@[simp] theorem State.setV_beep (x : Reg) (b : Byte) : (s.setV x b).beep = s.beep := rfl
@[simp] theorem State.setV_halt (x : Reg) (b : Byte) : (s.setV x b).halt = s.halt := rfl
@[simp] theorem State.setV_mem (x : Reg) (b : Byte) : (s.setV x b).mem = s.mem := rfl
@[simp] theorem State.setV_fb (x : Reg) (b : Byte) : (s.setV x b).fb = s.fb := rfl
@[simp] theorem State.setV_params (x : Reg) (b : Byte) : (s.setV x b).params = s.params := rfl
@[simp] theorem State.setV_waiting (x : Reg) (b : Byte) : (s.setV x b).waiting = s.waiting := rfl
@[simp] theorem State.setV_inputs (x : Reg) (b : Byte) : (s.setV x b).inputs = s.inputs := rfl
@[simp] theorem State.setV_inputIndex (x : Reg) (b : Byte) : (s.setV x b).inputIndex = s.inputIndex := rfl
@[simp] theorem State.setV_trace (x : Reg) (b : Byte) : (s.setV x b).trace = s.trace := rfl

@[simp] theorem State.setI_v (a : Word) : (s.setI a).v = s.v := rfl
@[simp] theorem State.setI_i (a : Word) : (s.setI a).i = a := rfl
@[simp] theorem State.setI_pc (a : Word) : (s.setI a).pc = s.pc := rfl
@[simp] theorem State.setI_sp (a : Word) : (s.setI a).sp = s.sp := rfl
@[simp] theorem State.setI_stack (a : Word) : (s.setI a).stack = s.stack := rfl
@[simp] theorem State.setI_dt (a : Word) : (s.setI a).dt = s.dt := rfl
@[simp] theorem State.setI_st (a : Word) : (s.setI a).st = s.st := rfl
@[simp] theorem State.setI_paused (a : Word) : (s.setI a).paused = s.paused := rfl
@[simp] theorem State.setI_beep (a : Word) : (s.setI a).beep = s.beep := rfl
@[simp] theorem State.setI_halt (a : Word) : (s.setI a).halt = s.halt := rfl
@[simp] theorem State.setI_mem (a : Word) : (s.setI a).mem = s.mem := rfl
@[simp] theorem State.setI_fb (a : Word) : (s.setI a).fb = s.fb := rfl
@[simp] theorem State.setI_params (a : Word) : (s.setI a).params = s.params := rfl
@[simp] theorem State.setI_waiting (a : Word) : (s.setI a).waiting = s.waiting := rfl
@[simp] theorem State.setI_inputs (a : Word) : (s.setI a).inputs = s.inputs := rfl
@[simp] theorem State.setI_inputIndex (a : Word) : (s.setI a).inputIndex = s.inputIndex := rfl
@[simp] theorem State.setI_trace (a : Word) : (s.setI a).trace = s.trace := rfl

@[simp] theorem State.setPc_v (a : Word) : (s.setPc a).v = s.v := rfl
@[simp] theorem State.setPc_i (a : Word) : (s.setPc a).i = s.i := rfl
@[simp] theorem State.setPc_pc (a : Word) : (s.setPc a).pc = a := rfl
@[simp] theorem State.setPc_sp (a : Word) : (s.setPc a).sp = s.sp := rfl
@[simp] theorem State.setPc_stack (a : Word) : (s.setPc a).stack = s.stack := rfl
@[simp] theorem State.setPc_dt (a : Word) : (s.setPc a).dt = s.dt := rfl
@[simp] theorem State.setPc_st (a : Word) : (s.setPc a).st = s.st := rfl
@[simp] theorem State.setPc_paused (a : Word) : (s.setPc a).paused = s.paused := rfl
@[simp] theorem State.setPc_beep (a : Word) : (s.setPc a).beep = s.beep := rfl
@[simp] theorem State.setPc_halt (a : Word) : (s.setPc a).halt = s.halt := rfl
@[simp] theorem State.setPc_mem (a : Word) : (s.setPc a).mem = s.mem := rfl
@[simp] theorem State.setPc_fb (a : Word) : (s.setPc a).fb = s.fb := rfl
@[simp] theorem State.setPc_params (a : Word) : (s.setPc a).params = s.params := rfl
@[simp] theorem State.setPc_waiting (a : Word) : (s.setPc a).waiting = s.waiting := rfl
@[simp] theorem State.setPc_inputs (a : Word) : (s.setPc a).inputs = s.inputs := rfl
@[simp] theorem State.setPc_inputIndex (a : Word) : (s.setPc a).inputIndex = s.inputIndex := rfl
@[simp] theorem State.setPc_trace (a : Word) : (s.setPc a).trace = s.trace := rfl

@[simp] theorem State.setSp_v (n : Byte) : (s.setSp n).v = s.v := rfl
@[simp] theorem State.setSp_i (n : Byte) : (s.setSp n).i = s.i := rfl
@[simp] theorem State.setSp_pc (n : Byte) : (s.setSp n).pc = s.pc := rfl
@[simp] theorem State.setSp_sp (n : Byte) : (s.setSp n).sp = n := rfl
@[simp] theorem State.setSp_stack (n : Byte) : (s.setSp n).stack = s.stack := rfl
@[simp] theorem State.setSp_dt (n : Byte) : (s.setSp n).dt = s.dt := rfl
@[simp] theorem State.setSp_st (n : Byte) : (s.setSp n).st = s.st := rfl
@[simp] theorem State.setSp_paused (n : Byte) : (s.setSp n).paused = s.paused := rfl
@[simp] theorem State.setSp_beep (n : Byte) : (s.setSp n).beep = s.beep := rfl
@[simp] theorem State.setSp_halt (n : Byte) : (s.setSp n).halt = s.halt := rfl
@[simp] theorem State.setSp_mem (n : Byte) : (s.setSp n).mem = s.mem := rfl
@[simp] theorem State.setSp_fb (n : Byte) : (s.setSp n).fb = s.fb := rfl
@[simp] theorem State.setSp_params (n : Byte) : (s.setSp n).params = s.params := rfl
@[simp] theorem State.setSp_waiting (n : Byte) : (s.setSp n).waiting = s.waiting := rfl
@[simp] theorem State.setSp_inputs (n : Byte) : (s.setSp n).inputs = s.inputs := rfl
@[simp] theorem State.setSp_inputIndex (n : Byte) : (s.setSp n).inputIndex = s.inputIndex := rfl
@[simp] theorem State.setSp_trace (n : Byte) : (s.setSp n).trace = s.trace := rfl

@[simp] theorem State.setStack_v (e : Vector Word 16) : (s.setStack e).v = s.v := rfl
@[simp] theorem State.setStack_i (e : Vector Word 16) : (s.setStack e).i = s.i := rfl
@[simp] theorem State.setStack_pc (e : Vector Word 16) : (s.setStack e).pc = s.pc := rfl
@[simp] theorem State.setStack_sp (e : Vector Word 16) : (s.setStack e).sp = s.sp := rfl
@[simp] theorem State.setStack_stack (e : Vector Word 16) : (s.setStack e).stack = e := rfl
@[simp] theorem State.setStack_dt (e : Vector Word 16) : (s.setStack e).dt = s.dt := rfl
@[simp] theorem State.setStack_st (e : Vector Word 16) : (s.setStack e).st = s.st := rfl
@[simp] theorem State.setStack_paused (e : Vector Word 16) : (s.setStack e).paused = s.paused := rfl
@[simp] theorem State.setStack_beep (e : Vector Word 16) : (s.setStack e).beep = s.beep := rfl
@[simp] theorem State.setStack_halt (e : Vector Word 16) : (s.setStack e).halt = s.halt := rfl
@[simp] theorem State.setStack_mem (e : Vector Word 16) : (s.setStack e).mem = s.mem := rfl
@[simp] theorem State.setStack_fb (e : Vector Word 16) : (s.setStack e).fb = s.fb := rfl
@[simp] theorem State.setStack_params (e : Vector Word 16) : (s.setStack e).params = s.params := rfl
@[simp] theorem State.setStack_waiting (e : Vector Word 16) : (s.setStack e).waiting = s.waiting := rfl
@[simp] theorem State.setStack_inputs (e : Vector Word 16) : (s.setStack e).inputs = s.inputs := rfl
@[simp] theorem State.setStack_inputIndex (e : Vector Word 16) : (s.setStack e).inputIndex = s.inputIndex := rfl
@[simp] theorem State.setStack_trace (e : Vector Word 16) : (s.setStack e).trace = s.trace := rfl

@[simp] theorem State.setDt_v (t : Timer) : (s.setDt t).v = s.v := rfl
@[simp] theorem State.setDt_i (t : Timer) : (s.setDt t).i = s.i := rfl
@[simp] theorem State.setDt_pc (t : Timer) : (s.setDt t).pc = s.pc := rfl
@[simp] theorem State.setDt_sp (t : Timer) : (s.setDt t).sp = s.sp := rfl
@[simp] theorem State.setDt_stack (t : Timer) : (s.setDt t).stack = s.stack := rfl
@[simp] theorem State.setDt_dt (t : Timer) : (s.setDt t).dt = t := rfl
@[simp] theorem State.setDt_st (t : Timer) : (s.setDt t).st = s.st := rfl
@[simp] theorem State.setDt_paused (t : Timer) : (s.setDt t).paused = s.paused := rfl
@[simp] theorem State.setDt_beep (t : Timer) : (s.setDt t).beep = s.beep := rfl
@[simp] theorem State.setDt_halt (t : Timer) : (s.setDt t).halt = s.halt := rfl
@[simp] theorem State.setDt_mem (t : Timer) : (s.setDt t).mem = s.mem := rfl
@[simp] theorem State.setDt_fb (t : Timer) : (s.setDt t).fb = s.fb := rfl
@[simp] theorem State.setDt_params (t : Timer) : (s.setDt t).params = s.params := rfl
@[simp] theorem State.setDt_waiting (t : Timer) : (s.setDt t).waiting = s.waiting := rfl
@[simp] theorem State.setDt_inputs (t : Timer) : (s.setDt t).inputs = s.inputs := rfl
@[simp] theorem State.setDt_inputIndex (t : Timer) : (s.setDt t).inputIndex = s.inputIndex := rfl
@[simp] theorem State.setDt_trace (t : Timer) : (s.setDt t).trace = s.trace := rfl

@[simp] theorem State.setSt_v (t : Timer) : (s.setSt t).v = s.v := rfl
@[simp] theorem State.setSt_i (t : Timer) : (s.setSt t).i = s.i := rfl
@[simp] theorem State.setSt_pc (t : Timer) : (s.setSt t).pc = s.pc := rfl
@[simp] theorem State.setSt_sp (t : Timer) : (s.setSt t).sp = s.sp := rfl
@[simp] theorem State.setSt_stack (t : Timer) : (s.setSt t).stack = s.stack := rfl
@[simp] theorem State.setSt_dt (t : Timer) : (s.setSt t).dt = s.dt := rfl
@[simp] theorem State.setSt_st (t : Timer) : (s.setSt t).st = t := rfl
@[simp] theorem State.setSt_paused (t : Timer) : (s.setSt t).paused = s.paused := rfl
@[simp] theorem State.setSt_beep (t : Timer) : (s.setSt t).beep = s.beep := rfl
@[simp] theorem State.setSt_halt (t : Timer) : (s.setSt t).halt = s.halt := rfl
@[simp] theorem State.setSt_mem (t : Timer) : (s.setSt t).mem = s.mem := rfl
@[simp] theorem State.setSt_fb (t : Timer) : (s.setSt t).fb = s.fb := rfl
@[simp] theorem State.setSt_params (t : Timer) : (s.setSt t).params = s.params := rfl
@[simp] theorem State.setSt_waiting (t : Timer) : (s.setSt t).waiting = s.waiting := rfl
@[simp] theorem State.setSt_inputs (t : Timer) : (s.setSt t).inputs = s.inputs := rfl
@[simp] theorem State.setSt_inputIndex (t : Timer) : (s.setSt t).inputIndex = s.inputIndex := rfl
@[simp] theorem State.setSt_trace (t : Timer) : (s.setSt t).trace = s.trace := rfl

@[simp] theorem State.setPaused_v (b : Bool) : (s.setPaused b).v = s.v := rfl
@[simp] theorem State.setPaused_i (b : Bool) : (s.setPaused b).i = s.i := rfl
@[simp] theorem State.setPaused_pc (b : Bool) : (s.setPaused b).pc = s.pc := rfl
@[simp] theorem State.setPaused_sp (b : Bool) : (s.setPaused b).sp = s.sp := rfl
@[simp] theorem State.setPaused_stack (b : Bool) : (s.setPaused b).stack = s.stack := rfl
@[simp] theorem State.setPaused_dt (b : Bool) : (s.setPaused b).dt = s.dt := rfl
@[simp] theorem State.setPaused_st (b : Bool) : (s.setPaused b).st = s.st := rfl
@[simp] theorem State.setPaused_paused (b : Bool) : (s.setPaused b).paused = b := rfl
@[simp] theorem State.setPaused_beep (b : Bool) : (s.setPaused b).beep = s.beep := rfl
@[simp] theorem State.setPaused_halt (b : Bool) : (s.setPaused b).halt = s.halt := rfl
@[simp] theorem State.setPaused_mem (b : Bool) : (s.setPaused b).mem = s.mem := rfl
@[simp] theorem State.setPaused_fb (b : Bool) : (s.setPaused b).fb = s.fb := rfl
@[simp] theorem State.setPaused_params (b : Bool) : (s.setPaused b).params = s.params := rfl
@[simp] theorem State.setPaused_waiting (b : Bool) : (s.setPaused b).waiting = s.waiting := rfl
@[simp] theorem State.setPaused_inputs (b : Bool) : (s.setPaused b).inputs = s.inputs := rfl
@[simp] theorem State.setPaused_inputIndex (b : Bool) : (s.setPaused b).inputIndex = s.inputIndex := rfl
@[simp] theorem State.setPaused_trace (b : Bool) : (s.setPaused b).trace = s.trace := rfl

@[simp] theorem State.setBeep_v (b : Bool) : (s.setBeep b).v = s.v := rfl
@[simp] theorem State.setBeep_i (b : Bool) : (s.setBeep b).i = s.i := rfl
@[simp] theorem State.setBeep_pc (b : Bool) : (s.setBeep b).pc = s.pc := rfl
@[simp] theorem State.setBeep_sp (b : Bool) : (s.setBeep b).sp = s.sp := rfl
@[simp] theorem State.setBeep_stack (b : Bool) : (s.setBeep b).stack = s.stack := rfl
@[simp] theorem State.setBeep_dt (b : Bool) : (s.setBeep b).dt = s.dt := rfl
@[simp] theorem State.setBeep_st (b : Bool) : (s.setBeep b).st = s.st := rfl
@[simp] theorem State.setBeep_paused (b : Bool) : (s.setBeep b).paused = s.paused := rfl
@[simp] theorem State.setBeep_beep (b : Bool) : (s.setBeep b).beep = b := rfl
@[simp] theorem State.setBeep_halt (b : Bool) : (s.setBeep b).halt = s.halt := rfl
@[simp] theorem State.setBeep_mem (b : Bool) : (s.setBeep b).mem = s.mem := rfl
@[simp] theorem State.setBeep_fb (b : Bool) : (s.setBeep b).fb = s.fb := rfl
@[simp] theorem State.setBeep_params (b : Bool) : (s.setBeep b).params = s.params := rfl
@[simp] theorem State.setBeep_waiting (b : Bool) : (s.setBeep b).waiting = s.waiting := rfl
@[simp] theorem State.setBeep_inputs (b : Bool) : (s.setBeep b).inputs = s.inputs := rfl
@[simp] theorem State.setBeep_inputIndex (b : Bool) : (s.setBeep b).inputIndex = s.inputIndex := rfl
@[simp] theorem State.setBeep_trace (b : Bool) : (s.setBeep b).trace = s.trace := rfl

@[simp] theorem State.setHalt_v (r : FaultRecord) : (s.setHalt r).v = s.v := rfl
@[simp] theorem State.setHalt_i (r : FaultRecord) : (s.setHalt r).i = s.i := rfl
@[simp] theorem State.setHalt_pc (r : FaultRecord) : (s.setHalt r).pc = s.pc := rfl
@[simp] theorem State.setHalt_sp (r : FaultRecord) : (s.setHalt r).sp = s.sp := rfl
@[simp] theorem State.setHalt_stack (r : FaultRecord) : (s.setHalt r).stack = s.stack := rfl
@[simp] theorem State.setHalt_dt (r : FaultRecord) : (s.setHalt r).dt = s.dt := rfl
@[simp] theorem State.setHalt_st (r : FaultRecord) : (s.setHalt r).st = s.st := rfl
@[simp] theorem State.setHalt_paused (r : FaultRecord) : (s.setHalt r).paused = s.paused := rfl
@[simp] theorem State.setHalt_beep (r : FaultRecord) : (s.setHalt r).beep = s.beep := rfl
@[simp] theorem State.setHalt_halt (r : FaultRecord) : (s.setHalt r).halt = some r := rfl
@[simp] theorem State.setHalt_mem (r : FaultRecord) : (s.setHalt r).mem = s.mem := rfl
@[simp] theorem State.setHalt_fb (r : FaultRecord) : (s.setHalt r).fb = s.fb := rfl
@[simp] theorem State.setHalt_params (r : FaultRecord) : (s.setHalt r).params = s.params := rfl
@[simp] theorem State.setHalt_waiting (r : FaultRecord) : (s.setHalt r).waiting = s.waiting := rfl
@[simp] theorem State.setHalt_inputs (r : FaultRecord) : (s.setHalt r).inputs = s.inputs := rfl
@[simp] theorem State.setHalt_inputIndex (r : FaultRecord) : (s.setHalt r).inputIndex = s.inputIndex := rfl
@[simp] theorem State.setHalt_trace (r : FaultRecord) : (s.setHalt r).trace = s.trace := rfl

@[simp] theorem State.setMem_v (m : Memory) : (s.setMem m).v = s.v := rfl
@[simp] theorem State.setMem_i (m : Memory) : (s.setMem m).i = s.i := rfl
@[simp] theorem State.setMem_pc (m : Memory) : (s.setMem m).pc = s.pc := rfl
@[simp] theorem State.setMem_sp (m : Memory) : (s.setMem m).sp = s.sp := rfl
@[simp] theorem State.setMem_stack (m : Memory) : (s.setMem m).stack = s.stack := rfl
@[simp] theorem State.setMem_dt (m : Memory) : (s.setMem m).dt = s.dt := rfl
@[simp] theorem State.setMem_st (m : Memory) : (s.setMem m).st = s.st := rfl
@[simp] theorem State.setMem_paused (m : Memory) : (s.setMem m).paused = s.paused := rfl
@[simp] theorem State.setMem_beep (m : Memory) : (s.setMem m).beep = s.beep := rfl
@[simp] theorem State.setMem_halt (m : Memory) : (s.setMem m).halt = s.halt := rfl
@[simp] theorem State.setMem_mem (m : Memory) : (s.setMem m).mem = m := rfl
@[simp] theorem State.setMem_fb (m : Memory) : (s.setMem m).fb = s.fb := rfl
@[simp] theorem State.setMem_params (m : Memory) : (s.setMem m).params = s.params := rfl
@[simp] theorem State.setMem_waiting (m : Memory) : (s.setMem m).waiting = s.waiting := rfl
@[simp] theorem State.setMem_inputs (m : Memory) : (s.setMem m).inputs = s.inputs := rfl
@[simp] theorem State.setMem_inputIndex (m : Memory) : (s.setMem m).inputIndex = s.inputIndex := rfl
@[simp] theorem State.setMem_trace (m : Memory) : (s.setMem m).trace = s.trace := rfl

@[simp] theorem State.setFb_v (f : FrameBuffer) : (s.setFb f).v = s.v := rfl
@[simp] theorem State.setFb_i (f : FrameBuffer) : (s.setFb f).i = s.i := rfl
@[simp] theorem State.setFb_pc (f : FrameBuffer) : (s.setFb f).pc = s.pc := rfl
@[simp] theorem State.setFb_sp (f : FrameBuffer) : (s.setFb f).sp = s.sp := rfl
@[simp] theorem State.setFb_stack (f : FrameBuffer) : (s.setFb f).stack = s.stack := rfl
@[simp] theorem State.setFb_dt (f : FrameBuffer) : (s.setFb f).dt = s.dt := rfl
@[simp] theorem State.setFb_st (f : FrameBuffer) : (s.setFb f).st = s.st := rfl
@[simp] theorem State.setFb_paused (f : FrameBuffer) : (s.setFb f).paused = s.paused := rfl
@[simp] theorem State.setFb_beep (f : FrameBuffer) : (s.setFb f).beep = s.beep := rfl
@[simp] theorem State.setFb_halt (f : FrameBuffer) : (s.setFb f).halt = s.halt := rfl
@[simp] theorem State.setFb_mem (f : FrameBuffer) : (s.setFb f).mem = s.mem := rfl
@[simp] theorem State.setFb_fb (f : FrameBuffer) : (s.setFb f).fb = f := rfl
@[simp] theorem State.setFb_params (f : FrameBuffer) : (s.setFb f).params = s.params := rfl
@[simp] theorem State.setFb_waiting (f : FrameBuffer) : (s.setFb f).waiting = s.waiting := rfl
@[simp] theorem State.setFb_inputs (f : FrameBuffer) : (s.setFb f).inputs = s.inputs := rfl
@[simp] theorem State.setFb_inputIndex (f : FrameBuffer) : (s.setFb f).inputIndex = s.inputIndex := rfl
@[simp] theorem State.setFb_trace (f : FrameBuffer) : (s.setFb f).trace = s.trace := rfl

@[simp] theorem State.setWaiting_v (b : Bool) : (s.setWaiting b).v = s.v := rfl
@[simp] theorem State.setWaiting_i (b : Bool) : (s.setWaiting b).i = s.i := rfl
@[simp] theorem State.setWaiting_pc (b : Bool) : (s.setWaiting b).pc = s.pc := rfl
@[simp] theorem State.setWaiting_sp (b : Bool) : (s.setWaiting b).sp = s.sp := rfl
@[simp] theorem State.setWaiting_stack (b : Bool) : (s.setWaiting b).stack = s.stack := rfl
@[simp] theorem State.setWaiting_dt (b : Bool) : (s.setWaiting b).dt = s.dt := rfl
@[simp] theorem State.setWaiting_st (b : Bool) : (s.setWaiting b).st = s.st := rfl
@[simp] theorem State.setWaiting_paused (b : Bool) : (s.setWaiting b).paused = s.paused := rfl
@[simp] theorem State.setWaiting_beep (b : Bool) : (s.setWaiting b).beep = s.beep := rfl
@[simp] theorem State.setWaiting_halt (b : Bool) : (s.setWaiting b).halt = s.halt := rfl
@[simp] theorem State.setWaiting_mem (b : Bool) : (s.setWaiting b).mem = s.mem := rfl
@[simp] theorem State.setWaiting_fb (b : Bool) : (s.setWaiting b).fb = s.fb := rfl
@[simp] theorem State.setWaiting_params (b : Bool) : (s.setWaiting b).params = s.params := rfl
@[simp] theorem State.setWaiting_waiting (b : Bool) : (s.setWaiting b).waiting = b := rfl
@[simp] theorem State.setWaiting_inputs (b : Bool) : (s.setWaiting b).inputs = s.inputs := rfl
@[simp] theorem State.setWaiting_inputIndex (b : Bool) : (s.setWaiting b).inputIndex = s.inputIndex := rfl
@[simp] theorem State.setWaiting_trace (b : Bool) : (s.setWaiting b).trace = s.trace := rfl

@[simp] theorem State.emit_v (e : Event) : (s.emit e).v = s.v := rfl
@[simp] theorem State.emit_i (e : Event) : (s.emit e).i = s.i := rfl
@[simp] theorem State.emit_pc (e : Event) : (s.emit e).pc = s.pc := rfl
@[simp] theorem State.emit_sp (e : Event) : (s.emit e).sp = s.sp := rfl
@[simp] theorem State.emit_stack (e : Event) : (s.emit e).stack = s.stack := rfl
@[simp] theorem State.emit_dt (e : Event) : (s.emit e).dt = s.dt := rfl
@[simp] theorem State.emit_st (e : Event) : (s.emit e).st = s.st := rfl
@[simp] theorem State.emit_paused (e : Event) : (s.emit e).paused = s.paused := rfl
@[simp] theorem State.emit_beep (e : Event) : (s.emit e).beep = s.beep := rfl
@[simp] theorem State.emit_halt (e : Event) : (s.emit e).halt = s.halt := rfl
@[simp] theorem State.emit_mem (e : Event) : (s.emit e).mem = s.mem := rfl
@[simp] theorem State.emit_fb (e : Event) : (s.emit e).fb = s.fb := rfl
@[simp] theorem State.emit_params (e : Event) : (s.emit e).params = s.params := rfl
@[simp] theorem State.emit_waiting (e : Event) : (s.emit e).waiting = s.waiting := rfl
@[simp] theorem State.emit_inputs (e : Event) : (s.emit e).inputs = s.inputs := rfl
@[simp] theorem State.emit_inputIndex (e : Event) : (s.emit e).inputIndex = s.inputIndex := rfl
@[simp] theorem State.emit_trace (e : Event) : (s.emit e).trace = e :: s.trace := rfl

@[simp] theorem State.advance_v : (s.advance).v = s.v := rfl
@[simp] theorem State.advance_i : (s.advance).i = s.i := rfl
@[simp] theorem State.advance_pc : (s.advance).pc = s.pc + 2 := rfl
@[simp] theorem State.advance_sp : (s.advance).sp = s.sp := rfl
@[simp] theorem State.advance_stack : (s.advance).stack = s.stack := rfl
@[simp] theorem State.advance_dt : (s.advance).dt = s.dt := rfl
@[simp] theorem State.advance_st : (s.advance).st = s.st := rfl
@[simp] theorem State.advance_paused : (s.advance).paused = s.paused := rfl
@[simp] theorem State.advance_beep : (s.advance).beep = s.beep := rfl
@[simp] theorem State.advance_halt : (s.advance).halt = s.halt := rfl
@[simp] theorem State.advance_mem : (s.advance).mem = s.mem := rfl
@[simp] theorem State.advance_fb : (s.advance).fb = s.fb := rfl
@[simp] theorem State.advance_params : (s.advance).params = s.params := rfl
@[simp] theorem State.advance_waiting : (s.advance).waiting = s.waiting := rfl
@[simp] theorem State.advance_inputs : (s.advance).inputs = s.inputs := rfl
@[simp] theorem State.advance_inputIndex : (s.advance).inputIndex = s.inputIndex := rfl
@[simp] theorem State.advance_trace : (s.advance).trace = s.trace := rfl

@[simp] theorem State.skipIf_v (c : Bool) : (s.skipIf c).v = s.v := rfl
@[simp] theorem State.skipIf_i (c : Bool) : (s.skipIf c).i = s.i := rfl
@[simp] theorem State.skipIf_pc (c : Bool) : (s.skipIf c).pc = if c then s.pc + 4 else s.pc + 2 := rfl
@[simp] theorem State.skipIf_sp (c : Bool) : (s.skipIf c).sp = s.sp := rfl
@[simp] theorem State.skipIf_stack (c : Bool) : (s.skipIf c).stack = s.stack := rfl
@[simp] theorem State.skipIf_dt (c : Bool) : (s.skipIf c).dt = s.dt := rfl
@[simp] theorem State.skipIf_st (c : Bool) : (s.skipIf c).st = s.st := rfl
@[simp] theorem State.skipIf_paused (c : Bool) : (s.skipIf c).paused = s.paused := rfl
@[simp] theorem State.skipIf_beep (c : Bool) : (s.skipIf c).beep = s.beep := rfl
@[simp] theorem State.skipIf_halt (c : Bool) : (s.skipIf c).halt = s.halt := rfl
@[simp] theorem State.skipIf_mem (c : Bool) : (s.skipIf c).mem = s.mem := rfl
@[simp] theorem State.skipIf_fb (c : Bool) : (s.skipIf c).fb = s.fb := rfl
@[simp] theorem State.skipIf_params (c : Bool) : (s.skipIf c).params = s.params := rfl
@[simp] theorem State.skipIf_waiting (c : Bool) : (s.skipIf c).waiting = s.waiting := rfl
@[simp] theorem State.skipIf_inputs (c : Bool) : (s.skipIf c).inputs = s.inputs := rfl
@[simp] theorem State.skipIf_inputIndex (c : Bool) : (s.skipIf c).inputIndex = s.inputIndex := rfl
@[simp] theorem State.skipIf_trace (c : Bool) : (s.skipIf c).trace = s.trace := rfl

@[simp] theorem State.raise_v (code : FaultCode) (word addr : Option Word) : (s.raise code word addr).v = s.v := rfl
@[simp] theorem State.raise_i (code : FaultCode) (word addr : Option Word) : (s.raise code word addr).i = s.i := rfl
@[simp] theorem State.raise_pc (code : FaultCode) (word addr : Option Word) : (s.raise code word addr).pc = s.pc := rfl
@[simp] theorem State.raise_sp (code : FaultCode) (word addr : Option Word) : (s.raise code word addr).sp = s.sp := rfl
@[simp] theorem State.raise_stack (code : FaultCode) (word addr : Option Word) : (s.raise code word addr).stack = s.stack := rfl
@[simp] theorem State.raise_dt (code : FaultCode) (word addr : Option Word) : (s.raise code word addr).dt = s.dt := rfl
@[simp] theorem State.raise_st (code : FaultCode) (word addr : Option Word) : (s.raise code word addr).st = s.st := rfl
@[simp] theorem State.raise_paused (code : FaultCode) (word addr : Option Word) : (s.raise code word addr).paused = s.paused := rfl
@[simp] theorem State.raise_beep (code : FaultCode) (word addr : Option Word) : (s.raise code word addr).beep = s.beep := rfl
@[simp] theorem State.raise_halt (code : FaultCode) (word addr : Option Word) : (s.raise code word addr).halt = some ⟨code, s.pc, word, addr⟩ := rfl
@[simp] theorem State.raise_mem (code : FaultCode) (word addr : Option Word) : (s.raise code word addr).mem = s.mem := rfl
@[simp] theorem State.raise_fb (code : FaultCode) (word addr : Option Word) : (s.raise code word addr).fb = s.fb := rfl
@[simp] theorem State.raise_params (code : FaultCode) (word addr : Option Word) : (s.raise code word addr).params = s.params := rfl
@[simp] theorem State.raise_waiting (code : FaultCode) (word addr : Option Word) : (s.raise code word addr).waiting = s.waiting := rfl
@[simp] theorem State.raise_inputs (code : FaultCode) (word addr : Option Word) : (s.raise code word addr).inputs = s.inputs := rfl
@[simp] theorem State.raise_inputIndex (code : FaultCode) (word addr : Option Word) : (s.raise code word addr).inputIndex = s.inputIndex := rfl
@[simp] theorem State.raise_trace (code : FaultCode) (word addr : Option Word) : (s.raise code word addr).trace = s.trace := rfl

@[simp] theorem State.storeAtI_v (bs : List Byte) : (s.storeAtI bs).v = s.v := rfl
@[simp] theorem State.storeAtI_i (bs : List Byte) : (s.storeAtI bs).i = s.i := rfl
@[simp] theorem State.storeAtI_pc (bs : List Byte) : (s.storeAtI bs).pc = s.pc := rfl
@[simp] theorem State.storeAtI_sp (bs : List Byte) : (s.storeAtI bs).sp = s.sp := rfl
@[simp] theorem State.storeAtI_stack (bs : List Byte) : (s.storeAtI bs).stack = s.stack := rfl
@[simp] theorem State.storeAtI_dt (bs : List Byte) : (s.storeAtI bs).dt = s.dt := rfl
@[simp] theorem State.storeAtI_st (bs : List Byte) : (s.storeAtI bs).st = s.st := rfl
@[simp] theorem State.storeAtI_paused (bs : List Byte) : (s.storeAtI bs).paused = s.paused := rfl
@[simp] theorem State.storeAtI_beep (bs : List Byte) : (s.storeAtI bs).beep = s.beep := rfl
@[simp] theorem State.storeAtI_halt (bs : List Byte) : (s.storeAtI bs).halt = s.halt := rfl
@[simp] theorem State.storeAtI_mem (bs : List Byte) : (s.storeAtI bs).mem = storeBytes s.mem s.i bs := rfl
@[simp] theorem State.storeAtI_fb (bs : List Byte) : (s.storeAtI bs).fb = s.fb := rfl
@[simp] theorem State.storeAtI_params (bs : List Byte) : (s.storeAtI bs).params = s.params := rfl
@[simp] theorem State.storeAtI_waiting (bs : List Byte) : (s.storeAtI bs).waiting = s.waiting := rfl
@[simp] theorem State.storeAtI_inputs (bs : List Byte) : (s.storeAtI bs).inputs = s.inputs := rfl
@[simp] theorem State.storeAtI_inputIndex (bs : List Byte) : (s.storeAtI bs).inputIndex = s.inputIndex := rfl
@[simp] theorem State.storeAtI_trace (bs : List Byte) : (s.storeAtI bs).trace = s.trace := rfl

@[simp] theorem State.setFlag_v (c : Bool) : (s.setFlag c).v = s.v.set 15 (flagByte c) := rfl
@[simp] theorem State.setFlag_i (c : Bool) : (s.setFlag c).i = s.i := rfl
@[simp] theorem State.setFlag_pc (c : Bool) : (s.setFlag c).pc = s.pc := rfl
@[simp] theorem State.setFlag_sp (c : Bool) : (s.setFlag c).sp = s.sp := rfl
@[simp] theorem State.setFlag_stack (c : Bool) : (s.setFlag c).stack = s.stack := rfl
@[simp] theorem State.setFlag_dt (c : Bool) : (s.setFlag c).dt = s.dt := rfl
@[simp] theorem State.setFlag_st (c : Bool) : (s.setFlag c).st = s.st := rfl
@[simp] theorem State.setFlag_paused (c : Bool) : (s.setFlag c).paused = s.paused := rfl
@[simp] theorem State.setFlag_beep (c : Bool) : (s.setFlag c).beep = s.beep := rfl
@[simp] theorem State.setFlag_halt (c : Bool) : (s.setFlag c).halt = s.halt := rfl
@[simp] theorem State.setFlag_mem (c : Bool) : (s.setFlag c).mem = s.mem := rfl
@[simp] theorem State.setFlag_fb (c : Bool) : (s.setFlag c).fb = s.fb := rfl
@[simp] theorem State.setFlag_params (c : Bool) : (s.setFlag c).params = s.params := rfl
@[simp] theorem State.setFlag_waiting (c : Bool) : (s.setFlag c).waiting = s.waiting := rfl
@[simp] theorem State.setFlag_inputs (c : Bool) : (s.setFlag c).inputs = s.inputs := rfl
@[simp] theorem State.setFlag_inputIndex (c : Bool) : (s.setFlag c).inputIndex = s.inputIndex := rfl
@[simp] theorem State.setFlag_trace (c : Bool) : (s.setFlag c).trace = s.trace := rfl

@[simp] theorem State.setRegBlock_v (x : Reg) (bs : List Byte) : (s.setRegBlock x bs).v = Vector.ofFn fun k : Fin 16 => if k.val ≤ x.val then bs.getD k.val 0 else s.v[k.val] := rfl
@[simp] theorem State.setRegBlock_i (x : Reg) (bs : List Byte) : (s.setRegBlock x bs).i = s.i := rfl
@[simp] theorem State.setRegBlock_pc (x : Reg) (bs : List Byte) : (s.setRegBlock x bs).pc = s.pc := rfl
@[simp] theorem State.setRegBlock_sp (x : Reg) (bs : List Byte) : (s.setRegBlock x bs).sp = s.sp := rfl
@[simp] theorem State.setRegBlock_stack (x : Reg) (bs : List Byte) : (s.setRegBlock x bs).stack = s.stack := rfl
@[simp] theorem State.setRegBlock_dt (x : Reg) (bs : List Byte) : (s.setRegBlock x bs).dt = s.dt := rfl
@[simp] theorem State.setRegBlock_st (x : Reg) (bs : List Byte) : (s.setRegBlock x bs).st = s.st := rfl
@[simp] theorem State.setRegBlock_paused (x : Reg) (bs : List Byte) : (s.setRegBlock x bs).paused = s.paused := rfl
@[simp] theorem State.setRegBlock_beep (x : Reg) (bs : List Byte) : (s.setRegBlock x bs).beep = s.beep := rfl
@[simp] theorem State.setRegBlock_halt (x : Reg) (bs : List Byte) : (s.setRegBlock x bs).halt = s.halt := rfl
@[simp] theorem State.setRegBlock_mem (x : Reg) (bs : List Byte) : (s.setRegBlock x bs).mem = s.mem := rfl
@[simp] theorem State.setRegBlock_fb (x : Reg) (bs : List Byte) : (s.setRegBlock x bs).fb = s.fb := rfl
@[simp] theorem State.setRegBlock_params (x : Reg) (bs : List Byte) : (s.setRegBlock x bs).params = s.params := rfl
@[simp] theorem State.setRegBlock_waiting (x : Reg) (bs : List Byte) : (s.setRegBlock x bs).waiting = s.waiting := rfl
@[simp] theorem State.setRegBlock_inputs (x : Reg) (bs : List Byte) : (s.setRegBlock x bs).inputs = s.inputs := rfl
@[simp] theorem State.setRegBlock_inputIndex (x : Reg) (bs : List Byte) : (s.setRegBlock x bs).inputIndex = s.inputIndex := rfl
@[simp] theorem State.setRegBlock_trace (x : Reg) (bs : List Byte) : (s.setRegBlock x bs).trace = s.trace := rfl

@[simp] theorem State.takeInput_v : s.takeInput.v = s.v := rfl
@[simp] theorem State.takeInput_i : s.takeInput.i = s.i := rfl
@[simp] theorem State.takeInput_pc : s.takeInput.pc = s.pc := rfl
@[simp] theorem State.takeInput_sp : s.takeInput.sp = s.sp := rfl
@[simp] theorem State.takeInput_stack : s.takeInput.stack = s.stack := rfl
@[simp] theorem State.takeInput_dt : s.takeInput.dt = s.dt := rfl
@[simp] theorem State.takeInput_st : s.takeInput.st = s.st := rfl
@[simp] theorem State.takeInput_paused : s.takeInput.paused = s.paused := rfl
@[simp] theorem State.takeInput_beep : s.takeInput.beep = s.beep := rfl
@[simp] theorem State.takeInput_halt : s.takeInput.halt = s.halt := rfl
@[simp] theorem State.takeInput_mem : s.takeInput.mem = s.mem := rfl
@[simp] theorem State.takeInput_fb : s.takeInput.fb = s.fb := rfl
@[simp] theorem State.takeInput_params : s.takeInput.params = s.params := rfl
@[simp] theorem State.takeInput_waiting : s.takeInput.waiting = s.waiting := rfl
@[simp] theorem State.takeInput_inputs : s.takeInput.inputs = s.inputs.tail := rfl
@[simp] theorem State.takeInput_inputIndex : s.takeInput.inputIndex = s.inputIndex + 1 := rfl
@[simp] theorem State.takeInput_trace : s.takeInput.trace = s.trace := rfl

theorem State.input_congr {s t : State} (h : t.inputs = s.inputs) (k : t.inputIndex = s.inputIndex) :
    t.input = s.input := by simp [State.input, h, k]

end Sys2Proof.Machine
end

