-- ==== Sys2Proof/Laws/Display.lean ====
section
/-! SUPPORT. Laws of the framebuffer: clearing, flipping one pixel, and two framebuffers that agree everywhere. -/

namespace Sys2Proof.Machine

@[simp] theorem FrameBuffer.pixel_clear (x : Fin 64) (y : Fin 32) : FrameBuffer.clear.pixel x y = false := by
  simp [FrameBuffer.pixel, FrameBuffer.clear]

/-- Flipping a pixel changes that pixel and no other. -/
theorem FrameBuffer.pixel_flip (f : FrameBuffer) (x x' : Fin 64) (y y' : Fin 32) :
    (f.flip x y).pixel x' y' = (f.pixel x' y' ^^ decide (x = x' ∧ y = y')) := by
  by_cases hy : y = y'
  · subst hy
    by_cases hx : x = x'
    · subst hx
      simp [FrameBuffer.flip, FrameBuffer.pixel]
    · have : x.val ≠ x'.val := fun e => hx (Fin.ext e)
      simp [FrameBuffer.flip, FrameBuffer.pixel, this, hx]
  · have : y.val ≠ y'.val := fun e => hy (Fin.ext e)
    simp [FrameBuffer.flip, FrameBuffer.pixel, this, hy]

/-- Framebuffers with the same pixels are equal. -/
theorem FrameBuffer.ext_pixel {f g : FrameBuffer} (h : ∀ x y, f.pixel x y = g.pixel x y) : f = g := by
  apply Vector.ext
  intro j hj
  apply Vector.ext
  intro k hk
  exact h ⟨k, hk⟩ ⟨j, hj⟩

theorem Blit.bit_fb (d : Blit) (x x' : Fin 64) (y y' : Fin 32) (b : Bool) :
    (d.bit x y b).fb.pixel x' y' = (d.fb.pixel x' y' ^^ (b && decide (x = x' ∧ y = y'))) := by
  cases b <;> simp [Blit.bit, FrameBuffer.pixel_flip]

theorem Blit.bit_collided (d : Blit) (x : Fin 64) (y : Fin 32) (b : Bool) :
    (d.bit x y b).collided = (d.collided || (b && d.fb.pixel x y)) := by
  cases b <;> simp [Blit.bit]

end Sys2Proof.Machine
end

