-- ==== Sys2Proof/Laws/Memory.lean ====
section
/-! SUPPORT. Laws of main memory: reading after a write, the canonical form, and accesses to consecutive addresses. -/

namespace Sys2Proof.Machine

/-! One byte. -/

theorem resetByte_of_memSize_le {a : Nat} (h : memSize ≤ a) : resetByte a = 0 := by
  have : fontData.length ≤ a := le_trans (by decide) h
  simp [resetByte, List.getElem?_eq_none this]

theorem Memory.wfFrom_mono {lo lo' : Nat} (h : lo' ≤ lo) : ∀ {m : Memory}, Memory.wfFrom lo m = true → Memory.wfFrom lo' m = true
  | [], _ => rfl
  | (_, _) :: _, hm => by
    simp only [Memory.wfFrom, Bool.and_eq_true, decide_eq_true_eq] at hm ⊢
    exact ⟨⟨⟨h.trans hm.1.1.1, hm.1.1.2⟩, hm.1.2⟩, hm.2⟩

/-- Below the first listed address every byte is as reset left it. -/
theorem Memory.read_below {lo a : Nat} (h : a < lo) : ∀ {m : Memory}, Memory.wfFrom lo m = true → m.read a = resetByte a
  | [], _ => rfl
  | (k, _) :: m, hm => by
    simp only [Memory.wfFrom, Bool.and_eq_true, decide_eq_true_eq] at hm
    have hk : k ≠ a := by omega
    simp only [Memory.read, hk, if_false]
    exact Memory.read_below (by omega) hm.2

theorem Memory.read_cellOf_append {a : Nat} {b : Byte} {m : Memory} (h : m.read a = resetByte a) :
    Memory.read (cellOf a b ++ m) a = b := by
  unfold cellOf
  split
  · simp_all
  · simp [Memory.read]

theorem Memory.read_cellOf_append_ne {a a' : Nat} {b : Byte} {m : Memory} (h : a ≠ a') :
    Memory.read (cellOf a b ++ m) a' = m.read a' := by
  unfold cellOf
  split <;> simp [Memory.read, h]

/-- A read after a write to the same address gives the value written. -/
theorem Memory.read_write_self (a : Nat) (b : Byte) :
    ∀ {lo : Nat} {m : Memory}, Memory.wfFrom lo m = true → (m.write a b).read a = b
  | _, [], _ => by simpa [Memory.write] using Memory.read_cellOf_append (m := []) (b := b) rfl
  | _, (k, c) :: m, hm => by
    have hm' := hm
    simp only [Memory.wfFrom, Bool.and_eq_true, decide_eq_true_eq] at hm
    simp only [Memory.write]
    split
    · exact Memory.read_cellOf_append (Memory.read_below (lo := k) (by assumption)
        (by simp only [Memory.wfFrom, Bool.and_eq_true, decide_eq_true_eq]
            exact ⟨⟨⟨le_refl k, hm.1.1.2⟩, hm.1.2⟩, hm.2⟩))
    · split
      · exact Memory.read_cellOf_append (Memory.read_below (lo := k + 1) (by omega) hm.2)
      · have hk : k ≠ a := by omega
        simp only [Memory.read, hk, if_false]
        exact Memory.read_write_self a b hm.2

/-- A write leaves every other address alone. -/
theorem Memory.read_write_ne {a a' : Nat} (b : Byte) (h : a ≠ a') : ∀ m : Memory, (m.write a b).read a' = m.read a'
  | [] => by simpa [Memory.write] using Memory.read_cellOf_append_ne (m := []) (b := b) h
  | (k, c) :: m => by
    simp only [Memory.write]
    split
    · exact Memory.read_cellOf_append_ne h
    · split
      · rename_i hk
        subst hk
        rw [Memory.read_cellOf_append_ne h]
        simp [Memory.read, h]
      · simp only [Memory.read, Memory.read_write_ne b h m]

theorem Memory.wfFrom_cellOf_append {lo a : Nat} {b : Byte} {m : Memory} (hlo : lo ≤ a) (ha : a < memSize)
    (hm : Memory.wfFrom (a + 1) m = true) : Memory.wfFrom lo (cellOf a b ++ m) = true := by
  unfold cellOf
  split
  · exact Memory.wfFrom_mono (by omega) hm
  · simp [Memory.wfFrom, *]

/-- A write inside memory keeps the canonical form. -/
theorem Memory.wfFrom_write {a : Nat} (b : Byte) (ha : a < memSize) :
    ∀ {lo : Nat} {m : Memory}, lo ≤ a → Memory.wfFrom lo m = true → Memory.wfFrom lo (m.write a b) = true
  | _, [], hlo, _ => by simpa [Memory.write] using Memory.wfFrom_cellOf_append (b := b) (m := []) hlo ha rfl
  | lo, (k, c) :: m, hlo, hm => by
    have hm' := hm
    simp only [Memory.wfFrom, Bool.and_eq_true, decide_eq_true_eq] at hm
    simp only [Memory.write]
    split
    · refine Memory.wfFrom_cellOf_append hlo ha ?_
      simp only [Memory.wfFrom, Bool.and_eq_true, decide_eq_true_eq]
      exact ⟨⟨⟨by omega, hm.1.1.2⟩, hm.1.2⟩, hm.2⟩
    · split
      · rename_i hk
        subst hk
        exact Memory.wfFrom_cellOf_append hlo ha hm.2
      · simp only [Memory.wfFrom, Bool.and_eq_true, decide_eq_true_eq]
        exact ⟨hm.1, Memory.wfFrom_write b ha (by omega) hm.2⟩

theorem Memory.wf_write {m : Memory} {a : Nat} (b : Byte) (ha : a < memSize) (hm : m.wf = true) :
    (m.write a b).wf = true :=
  Memory.wfFrom_write b ha (Nat.zero_le a) hm

@[simp] theorem Memory.wf_nil : Memory.wf [] = true := rfl

/-! Accesses through an effective address. -/

theorem memIndex_lt (ea : Word) : memIndex ea < memSize := Nat.mod_lt _ (by decide)

theorem memIndex_of_lt {ea : Word} (h : ea.toNat < memSize) : memIndex ea = ea.toNat := Nat.mod_eq_of_lt h

theorem effectiveAddress_zero (base : Word) : effectiveAddress base 0 = base := by simp [effectiveAddress]

theorem effectiveAddress_succ (base : Word) (k : Nat) :
    effectiveAddress base (k + 1) = effectiveAddress (base + 1) k := by
  apply BitVec.eq_of_toNat_eq
  simp [effectiveAddress]
  omega

theorem memIndex_effectiveAddress (base : Word) (k : Nat) :
    memIndex (effectiveAddress base k) = (base.toNat + k) % 4096 := by
  simp [memIndex, effectiveAddress, memSize]

theorem storeByte_wf {m : Memory} (ea : Word) (b : Byte) (hm : m.wf = true) : (storeByte m ea b).wf = true :=
  Memory.wf_write b (memIndex_lt ea) hm

/-- Writing consecutive bytes keeps the canonical form. -/
theorem storeBytes_wf : ∀ (bs : List Byte) {m : Memory} (ea : Word), m.wf = true → (storeBytes m ea bs).wf = true
  | [], _, _, hm => hm
  | _ :: bs, _, _, hm => storeBytes_wf bs _ (storeByte_wf _ _ hm)

/-- Writing consecutive bytes leaves every byte that is none of their targets alone. -/
theorem read_storeBytes_of_ne (a : Nat) : ∀ (bs : List Byte) (m : Memory) (ea : Word),
    (∀ k, k < bs.length → memIndex (effectiveAddress ea k) ≠ a) → (storeBytes m ea bs).read a = m.read a
  | [], _, _, _ => rfl
  | b :: bs, m, ea, h => by
    have h0 : memIndex ea ≠ a := by simpa [effectiveAddress_zero] using h 0 (by simp)
    have := read_storeBytes_of_ne a bs (storeByte m ea b) (ea + 1) (fun k hk => by
      simpa [effectiveAddress_succ] using h (k + 1) (by simpa using hk))
    rw [storeBytes, this, storeByte, Memory.read_write_ne b h0]

/-- Up to 4096 consecutive bytes written are each read back from their address. -/
theorem read_storeBytes_at : ∀ (bs : List Byte) {m : Memory} (ea : Word), m.wf = true → bs.length ≤ 4096 →
    ∀ k (hk : k < bs.length), (storeBytes m ea bs).read (memIndex (effectiveAddress ea k)) = bs[k]
  | b :: bs, m, ea, hm, hlen, 0, _ => by
    simp only [storeBytes, effectiveAddress_zero, List.getElem_cons_zero]
    rw [read_storeBytes_of_ne]
    · exact Memory.read_write_self _ b hm
    · intro k hk
      simp only [← effectiveAddress_succ, memIndex_effectiveAddress]
      simp only [memIndex, memSize, List.length_cons] at *
      omega
  | b :: bs, m, ea, hm, hlen, k + 1, hk => by
    simp only [storeBytes, effectiveAddress_succ, List.getElem_cons_succ]
    exact read_storeBytes_at bs (ea + 1) (storeByte_wf ea b hm) (by simp at hlen; omega) k (by simpa using hk)

theorem loadBytes_length (m : Memory) : ∀ (n : Nat) (ea : Word), (loadBytes m ea n).length = n
  | 0, _ => rfl
  | n + 1, ea => by simp [loadBytes, loadBytes_length m n]

/-- The bytes read from consecutive addresses, one by one. -/
theorem loadBytes_eq_map (m : Memory) : ∀ (n : Nat) (ea : Word),
    loadBytes m ea n = (List.range n).map fun k => m.read (memIndex (effectiveAddress ea k))
  | 0, _ => rfl
  | n + 1, ea => by
    rw [loadBytes, loadBytes_eq_map m n, List.range_succ_eq_map]
    simp [loadByte, effectiveAddress_zero, effectiveAddress_succ]

/-! The range check. -/

theorem firstOutOfRange_wrap12 : ∀ (n : Nat) (ea : Word), firstOutOfRange .wrap12 ea n = none
  | 0, _ => rfl
  | n + 1, ea => by simp [firstOutOfRange, inRange, firstOutOfRange_wrap12 n]

/-- Under `fault`, `n` consecutive accesses from `ea` are all in range when the last one is, the sum taken without
wrap-around (R54). -/
theorem firstOutOfRange_of_le : ∀ (n : Nat) (ea : Word), ea.toNat + n ≤ memSize → firstOutOfRange .fault ea n = none
  | 0, _, _ => rfl
  | n + 1, ea, h => by
    have hea : ea.toNat < memSize := by omega
    have h1 : (ea + 1).toNat = ea.toNat + 1 := by
      simp [memSize] at *
      omega
    simp only [firstOutOfRange, inRange, hea, decide_true, if_true]
    exact firstOutOfRange_of_le n _ (by omega)

/-- Under `fault`, the first of `n` consecutive accesses that is out of range: `ea` itself, or the first address above
memory. -/
theorem firstOutOfRange_of_gt : ∀ (n : Nat) (ea : Word), 0 < n → memSize < ea.toNat + n →
    firstOutOfRange .fault ea n = some (if ea.toNat < 4096 then 0x1000 else ea)
  | n + 1, ea, _, h => by
    simp only [firstOutOfRange, inRange, memSize] at *
    by_cases hea : ea.toNat < 4096
    · have h1 : (ea + 1).toNat = ea.toNat + 1 := by
        simp
        omega
      simp only [hea, decide_true, if_true]
      by_cases hlast : ea.toNat = 4095
      · have e1 : ea + 1 = 0x1000 := BitVec.eq_of_toNat_eq (by simp [hlast])
        rw [e1]
        obtain ⟨n, rfl⟩ : ∃ k, n = k + 1 := ⟨n - 1, by omega⟩
        simp [firstOutOfRange, inRange, memSize]
      · rw [firstOutOfRange_of_gt n (ea + 1) (by omega) (by simp only [memSize]; omega)]
        simp
        omega
    · simp [hea]

/-- An address the check reports is out of range. -/
theorem firstOutOfRange_outside {p : AddrPolicy} : ∀ {n : Nat} {ea a : Word}, firstOutOfRange p ea n = some a →
    memSize ≤ a.toNat
  | n + 1, ea, a, h => by
    simp only [firstOutOfRange] at h
    split at h
    · exact firstOutOfRange_outside h
    · rename_i hr
      cases p <;> simp_all [inRange]

end Sys2Proof.Machine
end

