-- ==== Sys2Proof/Laws/Ops.lean ====
section
/-! SUPPORT. One lemma for each shared operation: what it can do. -/

namespace Sys2Proof.Machine

variable {s t : State}

/-! Registers. -/

/-- Reading a register after one was written. -/
theorem State.readV_setV (x y : Reg) (b : Byte) : (s.setV x b).readV y = if x = y then b else s.readV y := by
  simp only [State.readV, State.setV_v, Vector.getElem_set, Fin.ext_iff]

@[simp] theorem State.readV_setV_self (x : Reg) (b : Byte) : (s.setV x b).readV x = b := by
  simp [State.readV_setV]

theorem State.readV_setV_ne {x y : Reg} (b : Byte) (h : x ≠ y) : (s.setV x b).readV y = s.readV y := by
  simp [State.readV_setV, h]

@[simp] theorem State.readV_setFlag_self (c : Bool) : (s.setFlag c).readV 15 = flagByte c := by
  simp [State.setFlag, flagReg]

theorem State.readV_setFlag_ne {y : Reg} (c : Bool) (h : y ≠ 15) : (s.setFlag c).readV y = s.readV y :=
  State.readV_setV_ne _ (Ne.symm h)

theorem State.readV_congr (h : t.v = s.v) (x : Reg) : t.readV x = s.readV x := by simp [State.readV, h]

@[simp] theorem State.readV_advance (x : Reg) : s.advance.readV x = s.readV x := rfl

/-- A register after a result and its flag: the flag in `VF`, the result in `V[x]` where that is not `VF`. -/
theorem State.readV_writeResult (x y : Reg) (b : Byte) (c : Bool) :
    (s.writeResult x b c).readV y = if y = 15 then flagByte c else if x = y then b else s.readV y := by
  by_cases h : y = 15
  · subst h
    simp [State.writeResult]
  · simp only [State.writeResult, State.readV_advance, State.readV_setFlag_ne c h, State.readV_setV, h, if_false]

theorem State.writeResult_eq (x : Reg) (b : Byte) (c : Bool) :
    s.writeResult x b c = { s with v := (s.writeResult x b c).v, pc := s.pc + 2 } := rfl

theorem flagByte_eq_zero_or_one (c : Bool) : flagByte c = 0 ∨ flagByte c = 1 := by cases c <;> simp [flagByte]

/-- The frame of an instruction that writes one register and advances. -/
theorem RegisterFrame.of_setV (x : Reg) (b : Byte) : RegisterFrame s (s.setV x b).advance [x] where
  others := rfl
  registers r h := by
    have : x ≠ r := fun e => h (by simp [e])
    simp [State.readV_setV_ne b this]
  memory _ := rfl

/-- The frame of an instruction that writes a result, a flag and advances. -/
theorem RegisterFrame.of_writeResult (x : Reg) (b : Byte) (c : Bool) :
    RegisterFrame s (s.writeResult x b c) [x, 15] where
  others := rfl
  registers r h := by
    simp only [List.mem_cons, List.not_mem_nil, or_false, not_or] at h
    simp [State.readV_writeResult, h.2, Ne.symm h.1]
  memory _ := rfl

/-! The return stack. -/

theorem State.popIndex_of_live {k : Fin 16} (h : s.sp.toNat = k.val + 1) : s.popIndex = some k := by
  simp [State.popIndex, h]

theorem State.popIndex_of_empty (h : s.sp.toNat = 0) : s.popIndex = none := by simp [State.popIndex, h]

/-- A pop finds an entry exactly below a live `SP`. -/
theorem State.popIndex_eq_some {k : Fin 16} (h : s.popIndex = some k) : s.sp.toNat = k.val + 1 := by
  unfold State.popIndex at h
  split at h
  · injection h with h
    have := congrArg Fin.val h
    simp only at this
    omega
  · cases h

theorem State.stackViolation_strict (h : s.params.stackPolicy = .strict) (c : FaultCode) (w : Word) :
    s.stackViolation c w = s.raise c (some w) none := by simp [State.stackViolation, h]

theorem State.stackViolation_permissive (h : s.params.stackPolicy = .permissive) (c : FaultCode) (w : Word) :
    s.stackViolation c w = s.advance := by simp [State.stackViolation, h]

/-- A violation raises its fault or advances, and nothing else. -/
theorem State.stackViolation_cases (s : State) (c : FaultCode) (w : Word) :
    s.stackViolation c w = s.raise c (some w) none ∨ s.stackViolation c w = s.advance := by
  cases h : s.params.stackPolicy
  · exact .inl (State.stackViolation_strict h c w)
  · exact .inr (State.stackViolation_permissive h c w)

/-! Accesses through `I`. -/

/-- The range check passes exactly for an access that is in range. -/
theorem firstOutOfRange_eq_none_iff (s : State) (n : Nat) :
    firstOutOfRange s.params.addrPolicy s.i n = none ↔ AccessOk s n := by
  rcases Nat.eq_zero_or_pos n with rfl | hn
  · simp [firstOutOfRange, AccessOk]
  cases hp : s.params.addrPolicy with
  | wrap12 => simp [AccessOk, hp, firstOutOfRange_wrap12]
  | fault =>
    by_cases h : s.i.toNat + n ≤ memSize
    · simp [AccessOk, h, firstOutOfRange_of_le]
    · rw [firstOutOfRange_of_gt n s.i hn (by omega)]
      simp [AccessOk, hp, h]
      omega

theorem State.checked_of_ok {n : Nat} (h : AccessOk s n) (w : Word) (f : State → State) : s.checked n w f = f s := by
  simp [State.checked, (firstOutOfRange_eq_none_iff s n).2 h]

theorem State.checked_of_not_ok {n : Nat} (h : ¬ AccessOk s n) (w : Word) (f : State → State) :
    s.checked n w f =
      s.raise .addressFault (some w) (some (if s.i.toNat < 4096 then 0x1000 else s.i)) := by
  have hn : 0 < n := Nat.pos_of_ne_zero fun e => h (.inl e)
  have hp : s.params.addrPolicy = .fault := by
    cases hp : s.params.addrPolicy with
    | fault => rfl
    | wrap12 => exact absurd (.inr (.inl hp)) h
  have hgt : memSize < s.i.toNat + n := by
    by_contra hle
    exact h (.inr (.inr (by omega)))
  simp [State.checked, hp, firstOutOfRange_of_gt n s.i hn hgt]

/-- A checked access either goes through or raises `AddressFault` at an address out of range. -/
theorem State.checked_cases (s : State) (n : Nat) (w : Word) (f : State → State) :
    s.checked n w f = f s ∨
      ∃ ea, memSize ≤ ea.toNat ∧ s.checked n w f = s.raise .addressFault (some w) (some ea) := by
  unfold State.checked
  split
  · rename_i ea h
    exact .inr ⟨ea, firstOutOfRange_outside h, rfl⟩
  · exact .inl rfl

theorem State.regBlock_length (s : State) (x : Reg) : (s.regBlock x).length = x.val + 1 := by
  simp [State.regBlock]

theorem State.regBlock_getElem (s : State) (x k : Reg) (h : k.val < (s.regBlock x).length) :
    (s.regBlock x)[k.val] = s.readV k := by
  simp [State.regBlock, State.readV]

theorem State.readV_setRegBlock (x k : Reg) (bs : List Byte) :
    (s.setRegBlock x bs).readV k = if k.val ≤ x.val then bs.getD k.val 0 else s.readV k := by
  simp [State.readV]

end Sys2Proof.Machine
end

