-- ==== Sys2Proof/Laws/PerInstr.lean ====
section
/-! SUPPORT. Per-instruction families (LAWS.json): one lemma for each constructor. -/

namespace Sys2Proof.Laws.PrimaryClass

/-- The primary class of the row with this dispatch index, the formulas of 30_encoding.md R73 read backwards. -/
def classOfIndex (k : Nat) : Nat :=
  if k ≤ 2 then 0x0 else if k ≤ 9 then k - 2 else if k ≤ 18 then 0x8
  else if k ≤ 23 then k - 10 else if k ≤ 25 then 0xE else 0xF

/-- The class nibble of an instruction's word is the one its dispatch index belongs to. -/
def Statement (i : Instr) : Prop := op1 (encode i) = classOfIndex (dispatchIndex i)

variable {i : Instr} {c : Nat}

theorem ofNNN {nnn : Addr12} (he : encode i = encodeNNN c nnn) (hk : classOfIndex (dispatchIndex i) = c)
    (hc : c < 16) : Statement i := by
  have := encodeNNN_toNat hc nnn
  rw [Statement, op1_eq, he, hk]
  omega

theorem ofXKK {x : Reg} {kk : Nat} (he : encode i = encodeXKK c x kk) (hk : classOfIndex (dispatchIndex i) = c)
    (hc : c < 16) (hb : kk < 256) : Statement i := by
  have := encodeXKK_toNat hc hb x
  rw [Statement, op1_eq, he, hk]
  omega

theorem ofXYN {x y : Reg} {n : Nat} (he : encode i = encodeXYN c x y n) (hk : classOfIndex (dispatchIndex i) = c)
    (hc : c < 16) (hn : n < 16) : Statement i := by
  have := encodeXYN_toNat hc hn x y
  rw [Statement, op1_eq, he, hk]
  omega

theorem ofClass0 {n : Nibble} {b : Nat} (he : encode i = encodeClass0 n b)
    (hk : classOfIndex (dispatchIndex i) = 0) (hb : b < 256) : Statement i := by
  have := encodeClass0_toNat hb n
  rw [Statement, op1_eq, he, hk]
  omega

theorem sys (nnn : Addr12) : Statement (.sys nnn) := ofNNN rfl rfl (by decide)
theorem cls (n : Nibble) : Statement (.cls n) := ofClass0 rfl rfl (by decide)
theorem ret (n : Nibble) : Statement (.ret n) := ofClass0 rfl rfl (by decide)
theorem jp (nnn : Addr12) : Statement (.jp nnn) := ofNNN rfl rfl (by decide)
theorem call (nnn : Addr12) : Statement (.call nnn) := ofNNN rfl rfl (by decide)
theorem seKk (x : Reg) (kk : Byte) : Statement (.seKk x kk) := ofXKK rfl rfl (by decide) kk.isLt
theorem sneKk (x : Reg) (kk : Byte) : Statement (.sneKk x kk) := ofXKK rfl rfl (by decide) kk.isLt
theorem seVy (x : Reg) (y : Reg) (n : Nibble) : Statement (.seVy x y n) := ofXYN rfl rfl (by decide) n.isLt
theorem ldKk (x : Reg) (kk : Byte) : Statement (.ldKk x kk) := ofXKK rfl rfl (by decide) kk.isLt
theorem addKk (x : Reg) (kk : Byte) : Statement (.addKk x kk) := ofXKK rfl rfl (by decide) kk.isLt
theorem ldVy (x : Reg) (y : Reg) : Statement (.ldVy x y) := ofXYN rfl rfl (by decide) (by decide)
theorem or (x : Reg) (y : Reg) : Statement (.or x y) := ofXYN rfl rfl (by decide) (by decide)
theorem and (x : Reg) (y : Reg) : Statement (.and x y) := ofXYN rfl rfl (by decide) (by decide)
theorem xor (x : Reg) (y : Reg) : Statement (.xor x y) := ofXYN rfl rfl (by decide) (by decide)
theorem add (x : Reg) (y : Reg) : Statement (.add x y) := ofXYN rfl rfl (by decide) (by decide)
theorem sub (x : Reg) (y : Reg) : Statement (.sub x y) := ofXYN rfl rfl (by decide) (by decide)
theorem shr (x : Reg) (y : Reg) : Statement (.shr x y) := ofXYN rfl rfl (by decide) (by decide)
theorem subn (x : Reg) (y : Reg) : Statement (.subn x y) := ofXYN rfl rfl (by decide) (by decide)
theorem shl (x : Reg) (y : Reg) : Statement (.shl x y) := ofXYN rfl rfl (by decide) (by decide)
theorem sneVy (x : Reg) (y : Reg) (n : Nibble) : Statement (.sneVy x y n) := ofXYN rfl rfl (by decide) n.isLt
theorem ldi (nnn : Addr12) : Statement (.ldi nnn) := ofNNN rfl rfl (by decide)
theorem jpv0 (nnn : Addr12) : Statement (.jpv0 nnn) := ofNNN rfl rfl (by decide)
theorem rnd (x : Reg) (kk : Byte) : Statement (.rnd x kk) := ofXKK rfl rfl (by decide) kk.isLt
theorem drw (x : Reg) (y : Reg) (n : Fin 16) : Statement (.drw x y n) := ofXYN rfl rfl (by decide) n.isLt
theorem skp (x : Reg) : Statement (.skp x) := ofXKK rfl rfl (by decide) (by decide)
theorem sknp (x : Reg) (kk : Byte) : Statement (.sknp x kk) := ofXKK rfl rfl (by decide) kk.isLt
theorem ldvdt (x : Reg) : Statement (.ldvdt x) := ofXKK rfl rfl (by decide) (by decide)
theorem ldk (x : Reg) : Statement (.ldk x) := ofXKK rfl rfl (by decide) (by decide)
theorem lddt (x : Reg) : Statement (.lddt x) := ofXKK rfl rfl (by decide) (by decide)
theorem ldst (x : Reg) : Statement (.ldst x) := ofXKK rfl rfl (by decide) (by decide)
theorem addi (x : Reg) : Statement (.addi x) := ofXKK rfl rfl (by decide) (by decide)
theorem ldf (x : Reg) : Statement (.ldf x) := ofXKK rfl rfl (by decide) (by decide)
theorem ldbcd (x : Reg) : Statement (.ldbcd x) := ofXKK rfl rfl (by decide) (by decide)
theorem ldrw (x : Reg) : Statement (.ldrw x) := ofXKK rfl rfl (by decide) (by decide)
theorem ldrs (x : Reg) : Statement (.ldrs x) := ofXKK rfl rfl (by decide) (by decide)

end Sys2Proof.Laws.PrimaryClass
end

