-- ==== Sys2Proof/Laws/Step.lean ====
section
/-! SUPPORT. The cycle said once: the cases of a step, and what the parts around the handler leave alone. -/

namespace Sys2Proof.Machine

variable {s t : State}

/-- A fetch depends on the address policy, `PC` and memory alone. -/
theorem fetchWord_congr (hp : t.params = s.params) (hpc : t.pc = s.pc) (hm : t.mem = s.mem) :
    fetchWord t = fetchWord s := by simp [fetchWord, hp, hpc, hm]

theorem State.enterCycle_of_not_waiting (h : s.waiting = false) : s.enterCycle = s.emit .frameStart := by
  simp [State.enterCycle, h]

theorem State.enterCycle_of_waiting (h : s.waiting = true) : s.enterCycle = s.setWaiting false := by
  simp [State.enterCycle, h]

/-- Entering a cycle with `PAUSED` at 0 changes the model's own fields alone. -/
theorem State.begun_eq (s : State) (h : s.samplePause.paused = false) :
    s.samplePause.enterCycle = { s with
      paused := false
      waiting := false
      trace := if s.waiting then s.trace else .frameStart :: s.trace } := by
  simp only [State.samplePause, State.setPaused] at h
  cases hw : s.waiting
  · simp [State.enterCycle, State.samplePause, State.setPaused, State.emit, hw] at h ⊢
    exact h
  · simp [State.enterCycle, State.samplePause, State.setPaused, State.setWaiting, hw]

/-- The handler of a new cycle starts in `State.cycleStart`. -/
theorem State.begun_eq_cycleStart (hw : s.waiting = false) (hp : s.input.pause = false) :
    s.samplePause.enterCycle = s.cycleStart := by
  simp [State.samplePause, State.enterCycle, State.setPaused, State.emit, State.cycleStart, hw, hp]

theorem State.samplePause_paused_of_waiting (hw : s.waiting = true) : s.samplePause.paused = false := by
  simp [State.samplePause, hw]

theorem State.samplePause_paused_of_not_waiting (hw : s.waiting = false) :
    s.samplePause.paused = s.input.pause := by simp [State.samplePause, hw]

/-- Everything a step can do: halted; paused; a fetch fault; a decode fault; or the handler of the decoded
instruction, and after it the end of the cycle. -/
theorem step_cases (h : step s = .next t) :
    (s.halt.isSome = true ∧ t = s) ∨
    (s.halt = none ∧ s.samplePause.paused = true ∧ t = s.samplePause.takeInput) ∨
    (s.halt = none ∧ s.samplePause.paused = false ∧ ∃ ea, fetchWord s = .error ea ∧
      t = s.samplePause.enterCycle.raise .addressFault none (some ea)) ∨
    (s.halt = none ∧ s.samplePause.paused = false ∧ ∃ w e, fetchWord s = .ok w ∧ decodeWord w = .error e ∧
      t = s.samplePause.enterCycle.raise .unrecognizedInstruction (some w) none) ∨
    (s.halt = none ∧ s.samplePause.paused = false ∧ ∃ w i u, fetchWord s = .ok w ∧ decodeWord w = .ok i ∧
      exec i s.samplePause.enterCycle = .next u ∧ t = u.endCycle) := by
  unfold step runCycle at h
  cases hh : s.halt with
  | some r => simp only [hh, Option.isSome_some, if_true, Host.Outcome.next.injEq] at h; exact .inl ⟨rfl, h.symm⟩
  | none =>
    simp only [hh, Option.isSome_none, Bool.false_eq_true, if_false] at h
    cases hp : s.samplePause.paused with
    | true => simp only [hp, if_true, Host.Outcome.next.injEq] at h; exact .inr (.inl ⟨rfl, rfl, h.symm⟩)
    | false =>
      simp only [hp, Bool.false_eq_true, if_false, executeCycle] at h
      have hf : fetchWord s.samplePause.enterCycle = fetchWord s := by
        rw [State.begun_eq s hp]; exact fetchWord_congr rfl rfl rfl
      rw [hf] at h
      cases hw : fetchWord s with
      | error ea =>
        simp only [hw, Host.Outcome.next.injEq] at h
        exact .inr (.inr (.inl ⟨rfl, rfl, ea, rfl, h.symm⟩))
      | ok w =>
        simp only [hw] at h
        cases hd : decodeWord w with
        | error e =>
          simp only [hd, Host.Outcome.next.injEq] at h
          exact .inr (.inr (.inr (.inl ⟨rfl, rfl, w, e, rfl, hd, h.symm⟩)))
        | ok i =>
          simp only [hd] at h
          cases hx : exec i s.samplePause.enterCycle with
          | next u =>
            simp only [hx, Host.Outcome.next.injEq] at h
            exact .inr (.inr (.inr (.inr ⟨rfl, rfl, w, i, u, rfl, hd, hx, h.symm⟩)))
          | fault r => cases r
          | refused r => simp [hx] at h

/-- A running, unpaused step whose word decodes answers what the handler answers, its cycle ended. -/
theorem step_of_decoded {w : Word} {i : Instr} {u : State} (hh : s.halt = none) (hp : s.samplePause.paused = false)
    (hf : fetchWord s = .ok w) (hd : decodeWord w = .ok i) (hx : exec i s.samplePause.enterCycle = .next u) :
    step s = .next u.endCycle := by
  have hf' : fetchWord s.samplePause.enterCycle = .ok w := by
    rw [State.begun_eq s hp, ← hf]; exact fetchWord_congr rfl rfl rfl
  simp [step, runCycle, executeCycle, hh, hp, hf', hd, hx]

/-- What the timer update touches. -/
theorem State.updateTimers_eq (s : State) (e : Nat) :
    s.updateTimers e = { s with
      dt := (s.dt.update s.params.interval e).1
      st := (s.st.update s.params.interval e).1
      beep := (s.updateTimers e).beep
      trace := (s.updateTimers e).trace } := by
  unfold State.updateTimers State.updateDt State.updateSt
  cases (s.dt.update s.params.interval e).2 <;>
    cases hs : (s.st.update s.params.interval e).2 <;>
    simp [State.noteDt, State.noteSt, State.beepOn, State.beepOff, State.setDt, State.setSt, State.emit,
      State.setBeep, hs]

/-- What the end of a completed cycle touches. -/
theorem State.finishCycle_eq (s : State) :
    s.finishCycle = { s with
      dt := (s.dt.update s.params.interval s.input.elapsed).1
      st := (s.st.update s.params.interval s.input.elapsed).1
      beep := s.finishCycle.beep
      trace := s.finishCycle.trace
      inputs := s.inputs.tail
      inputIndex := s.inputIndex + 1 } := by
  unfold State.finishCycle
  rw [State.updateTimers_eq]
  rfl

theorem State.endCycle_of_halted (h : s.halt.isSome = true) : s.endCycle = s := by simp [State.endCycle, h]

theorem State.endCycle_of_waiting (h : s.halt = none) (hw : s.waiting = true) : s.endCycle = s.takeInput := by
  simp [State.endCycle, h, hw]

theorem State.endCycle_of_complete (h : s.halt = none) (hw : s.waiting = false) : s.endCycle = s.finishCycle := by
  simp [State.endCycle, h, hw]

end Sys2Proof.Machine
end

