-- ==== Sys2Proof/Laws/Timers.lean ====
section
/-! SUPPORT. What a timer update can do (60_exceptions.md R192). -/

namespace Sys2Proof.Machine

theorem Timer.update_inactive {t : Timer} (h : t.value = 0) (interval e : Nat) :
    t.update interval e = (t, .quiet) := by simp [Timer.update, h]

theorem Timer.update_running {t : Timer} {e : Nat} (h : t.value ≠ 0) (hr : (e : Int) < t.remaining) (interval : Nat) :
    t.update interval e = (⟨t.value, t.remaining - e⟩, .quiet) := by
  have : 0 < t.remaining - (e : Int) := by omega
  rw [Timer.update, if_neg h, if_pos this]

theorem Timer.update_stops {t : Timer} {e : Nat} (h : t.value = 1) (hr : t.remaining ≤ (e : Int)) (interval : Nat) :
    t.update interval e = (⟨0, 0⟩, .elapsedStopped) := by
  have : ¬ 0 < t.remaining - (e : Int) := by omega
  rw [Timer.update, if_neg (by simp [h]), if_neg this, if_pos (by simp [h])]

theorem Timer.update_counts {t : Timer} {e : Nat} (h : t.value ≠ 0) (h1 : t.value ≠ 1)
    (hr : t.remaining ≤ (e : Int)) (interval : Nat) :
    t.update interval e = (⟨t.value - 1, interval + (t.remaining - e)⟩, .elapsed) := by
  have : ¬ 0 < t.remaining - (e : Int) := by omega
  have h2 : t.value - 1 ≠ 0 := fun hz => h1 (sub_eq_zero.mp hz)
  rw [Timer.update, if_neg h, if_neg this, if_neg h2]

/-- The four things an update can do, each with the condition under which it does it. -/
theorem Timer.update_cases (t : Timer) (interval e : Nat) :
    (t.value = 0 ∧ t.update interval e = (t, .quiet)) ∨
    (t.value ≠ 0 ∧ (e : Int) < t.remaining ∧ t.update interval e = (⟨t.value, t.remaining - e⟩, .quiet)) ∨
    (t.value = 1 ∧ t.remaining ≤ (e : Int) ∧ t.update interval e = (⟨0, 0⟩, .elapsedStopped)) ∨
    (t.value ≠ 0 ∧ t.value ≠ 1 ∧ t.remaining ≤ (e : Int) ∧
      t.update interval e = (⟨t.value - 1, interval + (t.remaining - e)⟩, .elapsed)) := by
  by_cases h : t.value = 0
  · exact .inl ⟨h, Timer.update_inactive h _ _⟩
  by_cases hr : (e : Int) < t.remaining
  · exact .inr (.inl ⟨h, hr, Timer.update_running h hr _⟩)
  have hr' : t.remaining ≤ (e : Int) := by omega
  by_cases h1 : t.value = 1
  · exact .inr (.inr (.inl ⟨h1, hr', Timer.update_stops h1 hr' _⟩))
  · exact .inr (.inr (.inr ⟨h, h1, hr', Timer.update_counts h h1 hr' _⟩))

@[simp] theorem Timer.load_value (interval : Nat) (b : Byte) : (Timer.load interval b).value = b := rfl

end Sys2Proof.Machine
end

