-- ==== Sys2Proof/Tests/Slice0.lean ====
section
/-! SUPPORT. The model's own tests, their expected results from spec/95_test_vectors.md (TV-…) or by hand from the
rule named, and for every statement with hypotheses a witness that meets them all. -/

namespace Sys2Proof.Tests

open Sys2Proof Sys2Proof.Machine

/-! Ill-formed terms are refused, by the check and by every word. -/

theorem test_wf_refuses_sys_of_cls : (Instr.sys 0x5E0).wf = false := by decide
theorem test_wf_refuses_sys_of_ret : (Instr.sys 0x0EE).wf = false := by decide
theorem test_wf_refuses_sknp_of_skp : (Instr.sknp 1 0x9E).wf = false := by decide
theorem test_wf_accepts_neighbours :
    (Instr.sys 0x0E1).wf = true ∧ (Instr.sys 0x0ED).wf = true ∧ (Instr.sknp 1 0x9F).wf = true := by decide

/-! Decoding: words written out from the encoding column of R74, one for each constructor at least. -/

theorem test_decode_flow :
    decodeTableWord 16 0x0123 = some (.sys 0x123) ∧ decodeTableWord 16 0x0AEE = some (.ret 0xA) ∧
    decodeTableWord 16 0x1ABC = some (.jp 0xABC) ∧ decodeTableWord 16 0x2300 = some (.call 0x300) ∧
    decodeTableWord 16 0x332A = some (.seKk 3 0x2A) ∧ decodeTableWord 16 0x432A = some (.sneKk 3 0x2A) ∧
    decodeTableWord 16 0x512F = some (.seVy 1 2 0xF) ∧ decodeTableWord 16 0x9AB7 = some (.sneVy 10 11 7) ∧
    decodeTableWord 16 0xBFED = some (.jpv0 0xFED) := by decide

theorem test_decode_alu :
    decodeTableWord 16 0x6A02 = some (.ldKk 10 0x02) ∧ decodeTableWord 16 0x71FF = some (.addKk 1 0xFF) ∧
    decodeTableWord 16 0x8EF0 = some (.ldVy 14 15) ∧ decodeTableWord 16 0x8121 = some (.or 1 2) ∧
    decodeTableWord 16 0x8342 = some (.and 3 4) ∧ decodeTableWord 16 0x8563 = some (.xor 5 6) ∧
    decodeTableWord 16 0x8784 = some (.add 7 8) ∧ decodeTableWord 16 0x89A5 = some (.sub 9 10) ∧
    decodeTableWord 16 0x81F6 = some (.shr 1 15) ∧ decodeTableWord 16 0x8127 = some (.subn 1 2) ∧
    decodeTableWord 16 0x812E = some (.shl 1 2) ∧ decodeTableWord 16 0xC30F = some (.rnd 3 0x0F) := by decide

theorem test_decode_memory :
    decodeTableWord 16 0xA2F0 = some (.ldi 0x2F0) ∧ decodeTableWord 16 0xF21E = some (.addi 2) ∧
    decodeTableWord 16 0xF429 = some (.ldf 4) ∧ decodeTableWord 16 0xF533 = some (.ldbcd 5) ∧
    decodeTableWord 16 0xF255 = some (.ldrw 2) ∧ decodeTableWord 16 0xFF65 = some (.ldrs 15) := by decide

theorem test_decode_display :
    decodeTableWord 16 0x05E0 = some (.cls 5) ∧ decodeTableWord 16 0xD5A3 = some (.drw 5 10 3) := by decide

theorem test_decode_keypad_timers :
    decodeTableWord 16 0xE19E = some (.skp 1) ∧ decodeTableWord 16 0xE1A1 = some (.sknp 1 0xA1) ∧
    decodeTableWord 16 0xE19F = some (.sknp 1 0x9F) ∧ decodeTableWord 16 0xF307 = some (.ldvdt 3) ∧
    decodeTableWord 16 0xF60A = some (.ldk 6) ∧ decodeTableWord 16 0xF215 = some (.lddt 2) ∧
    decodeTableWord 16 0xF318 = some (.ldst 3) := by decide

/-- TV-D5, TV-D8: unrecognised words of classes 8 and F. -/
theorem test_decode_refuses :
    decodeTableWord 16 0x8128 = none ∧ decodeTableWord 16 0x8129 = none ∧ decodeTableWord 16 0x812D = none ∧
    decodeTableWord 16 0x812F = none ∧ decodeTableWord 16 0xF100 = none ∧ decodeTableWord 16 0xF108 = none ∧
    decodeTableWord 16 0xF1FF = none := by decide

/-- A single byte is no instruction (R70). -/
theorem test_decode_truncated :
    (match decodeBytes [0x12] with | .error (.truncated 1) => true | _ => false) = true := by decide

/-- TV-D9: how many words of a class are instructions of one row, here the 16 of LDBCD among the words of class F. -/
theorem test_count_ldbcd :
    ((List.range 16).filter fun x => decodeTableWord 16 (0xF033 + x * 256) = some (.ldbcd (Fin.ofNat 16 x))).length = 16 := by
  decide

/-! Small states. -/

/-- Policies with `INTERVAL` 100. -/
def params (stack : StackPolicy) (addr : AddrPolicy) : Params := ⟨stack, addr, 100⟩

/-- A state after reset with `PAUSED` 0 and everything unspecified 0. -/
def start (p : Params) : State :=
  { State.resetWith p (Vector.replicate 16 0) 0 (Vector.replicate 16 0) [] with paused := false }

/-- The spec's default policies. -/
def base : State := start (params .strict .fault)

/-- Both alternative policies. -/
def lax : State := start (params .permissive .wrap12)

/-- The answers of an environment with no key, `e` elapsed ticks and the random byte A7. -/
def env (e : Nat) : Inputs := ⟨false, 0xA7, Vector.replicate 16 false, false, none, e⟩

/-- The state after one step that runs the word `w`. -/
def after (s : State) (w : Nat) : Option State :=
  match step (s.withFetchWord 16 w) with
  | .next t => some t
  | _ => none

/-- Some field of the state after one step that runs the word `w`. -/
def see {α : Type} (s : State) (w : Nat) (f : State → α) : Option α := (after s w).map f

/-- `base` with two registers set. -/
def regs (x : Reg) (a : Byte) (y : Reg) (b : Byte) : State := (base.setV x a).setV y b

/-- The pixels of row `y` at the columns listed. -/
def row (f : FrameBuffer) (y : Fin 32) (xs : List (Fin 64)) : List Bool := xs.map fun x => f.pixel x y

/-! One step: control flow. -/

/-- TV-F1. -/
theorem test_sys : see base 0x0123 (fun t => (t.pc, t.sp, t.halt)) = some (0x202, 0, none) := by decide
/-- TV-F2. -/
theorem test_jp : see base 0x1ABC (·.pc) = some 0xABC := by decide
/-- TV-F3. -/
theorem test_call : see (base.setPc 0x202) 0x2300 (fun t => (t.stack[0], t.sp, t.pc)) = some (0x204, 1, 0x300) := by
  decide
/-- TV-S2, the 17th cycle. -/
theorem test_call_overflow :
    see (base.setSp 16) 0x2200 (fun t => (t.halt, t.sp, t.pc)) =
      some (some ⟨.stackOverflow, 0x200, some 0x2200, none⟩, 16, 0x200) := by decide
/-- TV-F4. -/
theorem test_ret :
    see ((base.setSp 1).setStack (base.stack.set 0 0x204)) 0x00EE (fun t => (t.sp, t.pc, t.stack[0])) =
      some (0, 0x204, 0x204) := by decide
/-- TV-S1p, and TV-S1 below. -/
theorem test_ret_permissive : see lax 0x00EE (fun t => (t.sp, t.pc, t.halt)) = some (0, 0x202, none) := by decide
theorem test_ret_underflow :
    see base 0x00EE (fun t => (t.halt, t.pc)) = some (some ⟨.stackUnderflow, 0x200, some 0x00EE, none⟩, 0x200) := by
  decide
/-- TV-F5. -/
theorem test_se_kk :
    see (regs 3 0x2A 4 0) 0x332A (·.pc) = some 0x204 ∧ see (regs 3 0x2B 4 0) 0x332A (·.pc) = some 0x202 := by decide
/-- TV-F6. -/
theorem test_sne_kk :
    see (regs 3 0x2A 4 0) 0x432A (·.pc) = some 0x202 ∧ see base 0x432A (·.pc) = some 0x204 := by decide
/-- TV-F7. -/
theorem test_se_vy :
    see (regs 1 7 2 7) 0x512F (·.pc) = some 0x204 ∧ see (regs 1 7 2 8) 0x5120 (·.pc) = some 0x202 := by decide
/-- TV-F8. -/
theorem test_sne_vy :
    see (regs 1 7 2 8) 0x9120 (·.pc) = some 0x204 ∧ see (regs 1 7 2 7) 0x9120 (·.pc) = some 0x202 := by decide
/-- TV-F10: the sum is not reduced to 12 bits, whatever register `X` names. -/
theorem test_jpv0 : see (regs 0 0xFF 15 1) 0xBFFF (·.pc) = some 0x10FE := by decide

/-! One step: registers and arithmetic. -/

/-- TV-A1. -/
theorem test_ld_kk : see base 0x6A02 (fun t => (t.readV 10, t.readV 15)) = some (2, 0) := by decide
/-- TV-A2. -/
theorem test_add_kk : see (regs 1 0xFF 15 7) 0x7102 (fun t => (t.readV 1, t.readV 15)) = some (1, 7) := by decide
/-- TV-A3. -/
theorem test_ld_vy : see (regs 1 3 2 0x5A) 0x8120 (fun t => (t.readV 1, t.readV 2)) = some (0x5A, 0x5A) := by decide
/-- TV-A4. -/
theorem test_or : see ((regs 1 0xF0 2 0x0F).setV 15 7) 0x8121 (fun t => (t.readV 1, t.readV 15)) = some (0xFF, 7) := by
  decide
/-- TV-A5. -/
theorem test_and : see ((regs 1 0xF0 2 0x3C).setV 15 7) 0x8122 (fun t => (t.readV 1, t.readV 15)) = some (0x30, 7) := by
  decide
/-- TV-A6. -/
theorem test_xor : see ((regs 1 0xF0 2 0x3C).setV 15 7) 0x8123 (fun t => (t.readV 1, t.readV 15)) = some (0xCC, 7) := by
  decide
/-- TV-A7, TV-A13, TV-A14. -/
theorem test_add :
    see (regs 1 200 2 100) 0x8124 (fun t => (t.readV 1, t.readV 15)) = some (44, 1) ∧
    see (regs 1 100 15 200) 0x8F14 (·.readV 15) = some 1 := by decide
theorem test_add_y15 : see (regs 1 1 15 2) 0x81F4 (fun t => (t.readV 1, t.readV 15)) = some (3, 0) := by decide
/-- TV-A8. -/
theorem test_sub :
    see (regs 1 5 2 10) 0x8125 (fun t => (t.readV 1, t.readV 15)) = some (251, 0) ∧
    see (regs 1 7 2 7) 0x8125 (fun t => (t.readV 1, t.readV 15)) = some (0, 1) := by decide
/-- TV-A9. -/
theorem test_shr : see (regs 1 5 2 0xFF) 0x8126 (fun t => (t.readV 1, t.readV 15, t.readV 2)) = some (2, 1, 0xFF) := by
  decide
/-- TV-A10. -/
theorem test_subn :
    see (regs 1 10 2 5) 0x8127 (fun t => (t.readV 1, t.readV 15)) = some (251, 0) ∧
    see (regs 1 5 2 10) 0x8127 (fun t => (t.readV 1, t.readV 15)) = some (5, 1) := by decide
/-- TV-A11. -/
theorem test_shl : see (regs 1 0x81 2 0xFF) 0x812E (fun t => (t.readV 1, t.readV 15, t.readV 2)) = some (2, 1, 0xFF) := by
  decide
/-- TV-A12. -/
theorem test_rnd : see { base with inputs := [env 0] } 0xC30F (·.readV 3) = some 0x07 := by decide

/-! One step: the address register and memory. -/

/-- TV-M1. -/
theorem test_ldi : see (base.setI 0xFFFF) 0xA123 (·.i) = some 0x123 := by decide
/-- TV-M3. -/
theorem test_addi :
    see ((regs 2 2 15 7).setI 0xFFFF) 0xF21E (fun t => (t.i, t.readV 15)) = some (1, 7) := by decide
/-- TV-M4. -/
theorem test_ldf : see (base.setV 4 0xFF) 0xF429 (·.i) = some 0x4FB := by decide
/-- TV-M5, TV-M10. -/
theorem test_ldbcd :
    see ((base.setV 5 157).setI 0x300) 0xF533
      (fun t => (t.mem.read 0x300, t.mem.read 0x301, t.mem.read 0x302, t.i)) = some (1, 5, 7, 0x300) := by decide
theorem test_ldbcd_fault :
    see ((base.setV 5 157).setI 0xFFE) 0xF533 (fun t => (t.halt, t.mem.read 0xFFE)) =
      some (some ⟨.addressFault, 0x200, some 0xF533, some 0x1000⟩, 0) := by decide
/-- TV-M6; TV-X6: under `wrap12` the second byte goes over the font's first. -/
theorem test_ldrw :
    see (((regs 0 0x11 1 0x22).setV 2 0x33).setI 0x400) 0xF155
      (fun t => (t.mem.read 0x400, t.mem.read 0x401, t.mem.read 0x402, t.i)) = some (0x11, 0x22, 0, 0x400) := by decide
theorem test_ldrw_wrap12 :
    see (((lax.setV 0 0x11).setV 1 0x22).setI 0xFFF) 0xF155 (fun t => (t.mem.read 0xFFF, t.mem.read 0, t.halt)) =
      some (0x11, 0x22, none) := by decide
/-- TV-M7 with the font's glyph 0 as the source. -/
theorem test_ldrs :
    see (base.setV 3 9) 0xF265 (fun t => (t.readV 0, t.readV 1, t.readV 2, t.readV 3, t.i)) =
      some (0xF0, 0x90, 0x90, 9, 0) := by decide

/-! One step: display. -/

/-- TV-G7. -/
theorem test_cls :
    see (base.setFb ((base.fb.flip 5 6).flip 63 31)) 0x00E0 (fun t => (t.fb.pixel 5 6, t.fb.pixel 63 31, t.readV 15)) =
      some (false, false, 0) := by decide
/-- TV-G2: all eight bits, wrapped to the left edge of the same row. -/
theorem test_drw :
    see (((regs 0 63 1 5).setI 0x300).setMem (base.mem.write 0x300 0xFF)) 0xD011
      (fun t => (row t.fb 5 [62, 63, 0, 6, 7], row t.fb 6 [63, 0], t.readV 15)) =
      some ([false, true, true, true, false], [false, false], 0) := by decide
/-- TV-G8. -/
theorem test_drw_collision :
    see (((base.setFb (base.fb.flip 1 0)).setI 0x300).setMem (base.mem.write 0x300 0xC0)) 0xD011
      (fun t => (row t.fb 0 [0, 1, 2], t.readV 15)) = some ([true, false, false], 1) := by decide

/-! One step: keypad and timers. -/

/-- An environment in which key B is down. -/
def keyB : Inputs := { env 0 with keysDown := (Vector.replicate 16 false).set 11 true }

/-- TV-K1. -/
theorem test_skp :
    see { base.setV 1 0x0B with inputs := [keyB] } 0xE19E (·.pc) = some 0x204 ∧
    see { base.setV 1 0x0A with inputs := [keyB] } 0xE19E (·.pc) = some 0x202 := by decide
/-- TV-K2. -/
theorem test_sknp :
    see { base.setV 1 0x0B with inputs := [keyB] } 0xE1A1 (·.pc) = some 0x202 ∧
    see { base.setV 1 0x0A with inputs := [keyB] } 0xE100 (·.pc) = some 0x204 := by decide
/-- TV-K4: the value before this cycle's update. -/
theorem test_ldvdt :
    see { base.setDt ⟨0x2A, 1⟩ with inputs := [env 5] } 0xF307 (fun t => (t.readV 3, t.dt.value)) =
      some (0x2A, 0x29) := by decide
/-- TV-K5; TV-K6 for one step. -/
theorem test_ldk :
    see { base with inputs := [{ env 0 with keyEvent := some 11 }] } 0xF60A (fun t => (t.readV 6, t.pc, t.waiting)) =
      some (0x0B, 0x202, false) := by decide
theorem test_ldk_waits :
    see { base.setDt ⟨3, 10⟩ with inputs := [env 50] } 0xF60A (fun t => (t.pc, t.waiting, t.dt)) =
      some (0x200, true, ⟨3, 10⟩) := by decide
/-- TV-K7. -/
theorem test_lddt :
    see { base.setV 2 3 with inputs := [env 25] } 0xF215 (fun t => (t.dt, t.st)) = some (⟨3, 75⟩, ⟨0, 0⟩) := by decide
/-- TV-K9. -/
theorem test_ldst :
    see ((base.setSt ⟨2, 40⟩).setBeep true) 0xF218 (fun t => (t.st, t.beep)) = some (⟨0, 0⟩, true) := by decide

/-! The cycle. -/

/-- TV-T4 for the sound timer: the tone pulses and ends off. -/
theorem test_sound_stops :
    see { base.setSt ⟨1, 100⟩ with inputs := [env 100] } 0x0000 (fun t => (t.st, t.beep, t.trace)) =
      some (⟨0, 0⟩, false, [.beepEnd, .stopped .st, .beepStart, .elapsed .st, .frameDone, .frameStart]) := by decide
/-- TV-X1: no timer update in the faulting cycle. -/
theorem test_unrecognized :
    see { base.setDt ⟨3, 1⟩ with inputs := [env 50] } 0x8128 (fun t => (t.halt, t.pc, t.dt)) =
      some (some ⟨.unrecognizedInstruction, 0x200, some 0x8128, none⟩, 0x200, ⟨3, 1⟩) := by decide
/-- TV-X4, cycle 2. -/
theorem test_fetch_fault :
    (match step { base.setPc 0xFFF with inputs := [env 0] } with | .next t => t.halt | _ => none) =
      some ⟨.addressFault, 0xFFF, none, some 0x1000⟩ := by decide
/-- TV-T1, TV-T3, TV-T6: the timer engine alone. -/
theorem test_timer_update :
    Timer.update ⟨3, 100⟩ 100 100 = (⟨2, 100⟩, .elapsed) ∧ Timer.update ⟨1, 100⟩ 100 100 = (⟨0, 0⟩, .elapsedStopped) ∧
    Timer.update ⟨3, 100⟩ 100 1000 = (⟨2, -800⟩, .elapsed) ∧ Timer.update ⟨2, 0⟩ 100 0 = (⟨1, 100⟩, .elapsed) := by
  decide
/-- The loader lays a program out byte for byte (R213). -/
theorem test_load :
    ((base.load [0x6A, 0x02, 0x12, 0x00]).map fun t => (t.mem.read 0x200, t.mem.read 0x202, t.mem.read 0x203, t.pc)) =
      some (0x6A, 0x12, 0, 0x200) := by decide

/-! Witnesses: for every statement with hypotheses, concrete values that meet them; for one with several clauses, a
value at the edge of each. -/

/-- A state whose next word is `w`, the environment answering `f`. -/
def poised (s : State) (f : Inputs) (w : Nat) : State := { s with inputs := [f] }.withFetchWord 16 w

/-- A state halted by RET on an empty stack. -/
def halted : State := base.raise .stackUnderflow (some 0x00EE) none

/-- A state in LDK's wait. -/
def waitingAt (f : Inputs) : State := (poised base f 0xF60A).setWaiting true

theorem witness_DecodeOfEncodeIsIdentity :
    (Instr.sys 0xFFF).wf = true ∧ (Instr.sys 0x0EF).wf = true ∧ (Instr.sknp 15 0xFF).wf = true := by decide

theorem witness_EncodeOfDecodeIsIdentity :
    decodeWord 0x05E0 = .ok (.cls 5) ∧ decodeWord 0xFF65 = .ok (.ldrs 15) := ⟨rfl, rfl⟩

theorem witness_DecoderIsResolveIndex : decodeWord 0x8128 = .error (.unrecognizedInstruction 0x8128) := rfl

theorem witness_DontCareBitsHaveNoEffect :
    (op1 0x0FE0 = 0 ∧ op3 0x0FE0 = 0xE0) ∧ (op1 0x0AEE = 0 ∧ op3 0x0AEE = 0xEE) ∧
    (op1 0x0000 = 0 ∧ op3 0x0000 ≠ 0xE0 ∧ op3 0x0000 ≠ 0xEE) ∧ op1 0x512F = 5 ∧ op1 0x9AB7 = 9 ∧
    (0 < (base.setSp 1).sp.toNat ∧ (base.setSp 16).sp.toNat ≤ 16) := by decide

/-- `base` meets the invariant, whatever the environment will answer. -/
theorem base_inv (fs : List Inputs) : ({ base with inputs := fs } : State).Inv where
  memCanonical := rfl
  spBound := (by decide : base.sp.toNat ≤ 16)
  intervalPos := (by decide : 0 < base.params.interval)
  dtOk := ⟨fun _ => rfl, (by decide : base.dt.remaining ≤ base.params.interval)⟩
  stOk := ⟨fun _ => rfl, (by decide : base.st.remaining ≤ base.params.interval)⟩
  haltOk _ h := by cases h
  waitOk h := by cases h

theorem witness_StepKeepsTheInvariant :
    ({ base with inputs := [env 3] } : State).Inv ∧ ∃ t, step { base with inputs := [env 3] } = .next t :=
  ⟨base_inv _, _, rfl⟩

theorem witness_StepRunsTheDecodedInstruction_completes :
    ∃ s : State, s = poised base (env 7) 0x6A02 ∧ s.halt = none ∧ s.waiting = false ∧ s.input.pause = false ∧
      fetchWord s = .ok 0x6A02 ∧ decodeWord 0x6A02 = .ok (.ldKk 10 2) ∧
      (match exec (.ldKk 10 2) s.cycleStart with | .next t => t.halt.isNone && !t.waiting | _ => false) = true :=
  ⟨_, rfl, rfl, rfl, rfl, rfl, rfl, rfl⟩

theorem witness_StepRunsTheDecodedInstruction_faults :
    ∃ s : State, s = poised base (env 7) 0x00EE ∧ s.halt = none ∧ s.waiting = false ∧ s.input.pause = false ∧
      fetchWord s = .ok 0x00EE ∧ decodeWord 0x00EE = .ok (.ret 0) ∧
      (match exec (.ret 0) s.cycleStart with | .next t => t.halt.isSome | _ => false) = true :=
  ⟨_, rfl, rfl, rfl, rfl, rfl, rfl, rfl⟩

theorem witness_StepRunsTheDecodedInstruction_waits :
    ∃ s : State, s = poised base (env 7) 0xF60A ∧ s.halt = none ∧ s.waiting = false ∧ s.input.pause = false ∧
      fetchWord s = .ok 0xF60A ∧ decodeWord 0xF60A = .ok (.ldk 6) ∧
      (match exec (.ldk 6) s.cycleStart with | .next t => t.halt.isNone && t.waiting | _ => false) = true :=
  ⟨_, rfl, rfl, rfl, rfl, rfl, rfl, rfl⟩

theorem witness_HaltedEngineNeverMoves : halted.halt.isSome = true := rfl

theorem witness_PausedEngineKeepsItsState :
    ∃ (s : State) (fs : List Inputs), fs = [{ env 3 with pause := true }, { env 9 with pause := true }] ∧
      s = { base with inputs := fs ++ [env 1] } ∧ s.halt = none ∧ s.waiting = false ∧ s.inputs = fs ++ [env 1] ∧
      fs ≠ [] ∧ ∀ f ∈ fs, f.pause = true := ⟨_, _, rfl, rfl, rfl, rfl, rfl, by simp, by simp⟩

theorem witness_FetchIsBigEndianAndRangeChecked :
    (base.params.addrPolicy = .fault ∧ (base.setPc 0xFFE).pc.toNat < 0x0FFF) ∧
    (base.setPc 0xFFF).pc.toNat = 0x0FFF ∧ 0x0FFF < (base.setPc 0x1000).pc.toNat ∧
    0x0FFF < (base.setPc 0xFFFF).pc.toNat ∧ (lax.setPc 0xFFFF).params.addrPolicy = .wrap12 := by decide

theorem witness_FetchFaultIsRecorded :
    ∃ s : State, s = { base.setPc 0xFFF with inputs := [env 0] } ∧ s.halt = none ∧ s.waiting = false ∧
      s.input.pause = false ∧ fetchWord s = .error 0x1000 := ⟨_, rfl, rfl, rfl, rfl, rfl⟩

theorem witness_UnrecognizedInstructionHalts :
    ∃ s : State, s = poised lax (env 0) 0xF1FF ∧ s.halt = none ∧ s.waiting = false ∧ s.input.pause = false ∧
      fetchWord s = .ok 0xF1FF ∧ decodeWord 0xF1FF = .error (.unrecognizedInstruction 0xF1FF) :=
  ⟨_, rfl, rfl, rfl, rfl, rfl, rfl⟩

/-- For the two statements on handlers that fault: each of the three faults is raised by some handler. -/
theorem witness_FaultingHandlerChangesNothing :
    base.halt = none ∧ (base.setSp 16).halt = none ∧ (base.setI 0xFFF).halt = none ∧
    exec (.ret 0) base = .next (base.raise .stackUnderflow (some 0x00EE) none) ∧
    exec (.call 0x300) (base.setSp 16) = .next ((base.setSp 16).raise .stackOverflow (some 0x2300) none) ∧
    exec (.drw 0 1 2) (base.setI 0xFFF) =
      .next ((base.setI 0xFFF).raise .addressFault (some 0xD012) (some 0x1000)) ∧
    exec (.ldbcd 5) (base.setI 0xFFE) = .next ((base.setI 0xFFE).raise .addressFault (some 0xF533) (some 0x1000)) ∧
    exec (.ldrw 1) (base.setI 0xFFF) = .next ((base.setI 0xFFF).raise .addressFault (some 0xF155) (some 0x1000)) ∧
    exec (.ldrs 1) (base.setI 0xFFF) = .next ((base.setI 0xFFF).raise .addressFault (some 0xF165) (some 0x1000)) :=
  ⟨rfl, rfl, rfl, rfl, rfl, rfl, rfl, rfl, rfl⟩

theorem witness_HandlersRaiseOnlyTheirFault :
    (base.raise .stackUnderflow (some 0x00EE) none).halt = some ⟨.stackUnderflow, 0x200, some 0x00EE, none⟩ ∧
    ((base.setI 0xFFF).raise .addressFault (some 0xF165) (some 0x1000)).halt =
      some ⟨.addressFault, 0x200, some 0xF165, some 0x1000⟩ := by decide

theorem witness_HaltingStepIsPrecise :
    ∃ s t : State, s = poised base (env 0) 0x00EE ∧ s.halt = none ∧ step s = .next t ∧
      t.halt = some ⟨.stackUnderflow, 0x200, some 0x00EE, none⟩ := ⟨_, _, rfl, rfl, rfl, rfl⟩

theorem witness_OnlyListedInstructionsWrite :
    ∃ t, exec (.call 0x300) base = .next t ∧ t.sp ≠ base.sp ∧ t.stack ≠ base.stack :=
  ⟨_, rfl, by decide, by decide⟩

theorem witness_FlagRegisterDiscipline :
    base.halt = none ∧ (∃ t, exec (.add 1 2) base = .next t ∧ t.halt = none) ∧
    (∃ t, exec (.ldKk 15 7) base = .next t ∧ t.readV 15 ≠ base.readV 15) :=
  ⟨rfl, ⟨_, rfl, rfl⟩, ⟨_, rfl, by decide⟩⟩

theorem witness_OtherInstructionsIgnoreTheEnvironment :
    dispatchIndex (.ldi 0x123) ∉ [22, 24, 25, 27] ∧ ∃ t, exec (.ldi 0x123) base = .next t :=
  ⟨by decide, _, rfl⟩

theorem witness_ProgramCounterUpdate :
    (∃ t, exec (.skp 1) base = .next t ∧ t.halt = none ∧ t.waiting = false ∧ dispatchIndex (.skp 1) ∉ [2, 3, 4, 21]) ∧
    (∃ t, exec (.jp 0xFFF) base = .next t) ∧ (∃ t, exec (.jpv0 0xFFF) (base.setV 0 0xFF) = .next t) ∧
    (∃ t, exec (.call 0xFFF) (base.setSp 15) = .next t ∧ (base.setSp 15).sp.toNat < 16) ∧
    (∃ t, exec (.call 0xFFF) (lax.setSp 16) = .next t ∧ (lax.setSp 16).sp.toNat = 16 ∧
      (lax.setSp 16).params.stackPolicy = .permissive) ∧
    (∃ t, exec (.ret 0) (base.setSp 16) = .next t ∧ (base.setSp 16).sp.toNat = (15 : Fin 16).val + 1) ∧
    (∃ t, exec (.ret 0) lax = .next t ∧ lax.sp.toNat = 0 ∧ lax.params.stackPolicy = .permissive) :=
  ⟨⟨_, rfl, rfl, rfl, by decide⟩, ⟨_, rfl⟩, ⟨_, rfl⟩, ⟨_, rfl, by decide⟩, ⟨_, rfl, rfl, rfl⟩, ⟨_, rfl, rfl⟩,
    ⟨_, rfl, rfl, rfl⟩⟩

theorem witness_SysOnlyAdvances : sysFieldOk 0x000 = true ∧ sysFieldOk 0xFFF = true ∧ sysFieldOk 0x0EF = true := by
  decide

/-- For RET and CALL: `SP` at both ends of the live range, and the violation under both policies. -/
theorem witness_RetPopsOrUnderflows :
    (base.setSp 1).sp.toNat = (0 : Fin 16).val + 1 ∧ (base.setSp 16).sp.toNat = (15 : Fin 16).val + 1 ∧
    (base.sp = 0 ∧ base.params.stackPolicy = .strict) ∧ (lax.sp = 0 ∧ lax.params.stackPolicy = .permissive) := by
  decide

theorem witness_CallPushesOrOverflows :
    base.sp.toNat = (0 : Fin 16).val ∧ (base.setSp 15).sp.toNat = (15 : Fin 16).val ∧
    ((base.setSp 16).sp.toNat = 16 ∧ (base.setSp 16).params.stackPolicy = .strict) ∧
    ((lax.setSp 16).sp.toNat = 16 ∧ (lax.setSp 16).params.stackPolicy = .permissive) := by decide

theorem witness_RetUndoesCall : base.sp.toNat < 16 ∧ (base.setSp 15).sp.toNat < 16 := by decide

theorem witness_FlagsForOtherDestinations : (14 : Reg) ≠ 15 := by decide

/-- For LDBCD, LDRW, LDRS and DRW: the last access in range, and one that wraps under `wrap12`. -/
theorem witness_LdbcdStoresThreeDigits :
    base.mem.wf = true ∧ AccessOk (base.setI 0xFFD) 3 ∧ AccessOk (lax.setI 0xFFFF) 3 :=
  ⟨rfl, .inr (.inr (by decide)), .inr (.inl rfl)⟩

theorem witness_LdrwStoresTheRegisterBlock :
    base.mem.wf = true ∧ AccessOk (base.setI 0xFF0) ((15 : Reg).val + 1) ∧ AccessOk (base.setI 0xFFF) ((0 : Reg).val + 1) :=
  ⟨rfl, .inr (.inr (by decide)), .inr (.inr (by decide))⟩

theorem witness_LdrsLoadsTheRegisterBlock :
    AccessOk (base.setI 0xFF0) ((15 : Reg).val + 1) ∧ AccessOk (lax.setI 0xFFF) ((1 : Reg).val + 1) :=
  ⟨.inr (.inr (by decide)), .inr (.inl rfl)⟩

theorem witness_DrwDrawsTheBytesAtI :
    AccessOk (base.setI 0xFFFF) (0 : Fin 16).val ∧ AccessOk (base.setI 0xFF1) (15 : Fin 16).val :=
  ⟨.inl rfl, .inr (.inr (by decide))⟩

theorem witness_OutOfRangeAccessRaisesAddressFault :
    ¬ AccessOk (base.setI 0xFFE) 3 ∧ ¬ AccessOk (base.setI 0x1000) 1 ∧ ¬ AccessOk (base.setI 0xFFFF) 16 := by
  unfold AccessOk
  decide

theorem witness_LdrsRestoresWhatLdrwStored : base.mem.wf = true ∧ AccessOk (base.setI 0xFF0) ((15 : Reg).val + 1) :=
  ⟨rfl, .inr (.inr (by decide))⟩

theorem witness_StoreIsSeenByTheNextFetch :
    base.mem.wf = true ∧ 1 ≤ (1 : Reg).val ∧ (base.setI 0x202).i = (base.setI 0x202).pc + 2 ∧
    AccessOk (base.setI 0x202) ((1 : Reg).val + 1) :=
  ⟨rfl, by decide, by decide, .inr (.inr (by decide))⟩

theorem witness_LoaderCopiesTheProgram :
    base.mem.wf = true ∧ 3584 < (List.replicate 3585 (0 : Byte)).length ∧
    (List.replicate 3584 (0 : Byte)).length ≤ 3584 :=
  ⟨rfl, by rw [List.length_replicate]; omega, by rw [List.length_replicate]⟩

theorem witness_DrawSpriteIsExclusiveOr : (List.replicate 15 (0xFF : Byte)).length ≤ 15 := by decide

/-- For SKP and SKNP: the last key, the first number beyond the keys, and the neighbour of SKP's byte. -/
theorem witness_KeySkipsFollowTheKeypad :
    ((base.setV 1 15).readV 1).toNat = (15 : Fin 16).val ∧ 16 ≤ ((base.setV 1 16).readV 1).toNat ∧
    (0x9F : Byte) ≠ 0x9E := by decide

/-- An environment in which key B goes down. -/
def pressB : Inputs := { env 50 with keyEvent := some 11 }

theorem witness_LdkStoresTheKeyAndEndsItsWait :
    ∃ s : State, s = waitingAt pressB ∧ s.input.keyEvent = some 11 ∧ s.halt = none ∧ s.waiting = true ∧
      fetchWord s = .ok 0xF60A ∧ decodeWord 0xF60A = .ok (.ldk 6) := ⟨_, rfl, rfl, rfl, rfl, rfl, rfl⟩

theorem witness_LdkWaitChangesNothing :
    ∃ (s : State) (fs : List Inputs), fs = [env 3, { env 4 with pause := true }] ∧
      s = { waitingAt pressB with inputs := fs ++ [pressB] } ∧ s.halt = none ∧ s.waiting = true ∧ s.paused = false ∧
      fetchWord s = .ok 0xF60A ∧ decodeWord 0xF60A = .ok (.ldk 6) ∧ s.inputs = fs ++ [pressB] ∧
      ∀ f ∈ fs, f.keyEvent = none := ⟨_, _, rfl, rfl, rfl, rfl, rfl, rfl, rfl, rfl, by simp [env]⟩

theorem witness_TimerWritesArmAFullInterval :
    base.readV 3 = 0 ∧ (base.setV 3 1).readV 3 ≠ 0 ∧ (base.setV 3 0xFF).readV 3 ≠ 0 := by decide

/-- The four cases of an update, the last two at the edge `Remaining = e`. -/
theorem witness_TimerUpdateCases :
    (Timer.mk 0 0).value = 0 ∧ ((Timer.mk 1 5).value ≠ 0 ∧ (4 : Int) < (Timer.mk 1 5).remaining) ∧
    ((Timer.mk 1 5).value = 1 ∧ (Timer.mk 1 5).remaining ≤ (5 : Int)) ∧
    (1 < (Timer.mk 2 0).value.toNat ∧ (Timer.mk 2 0).remaining ≤ (0 : Int)) := by decide

theorem witness_TimerCountsFullIntervals : 0 < 100 ∧ ∀ e ∈ [100, 0, 40, 60], e ≤ 100 := by decide

theorem witness_DelayTimerFallsByAtMostOne :
    ∃ s t : State, s = poised (base.setDt ⟨2, 1⟩) (env 1) 0x6A02 ∧ step s = .next t ∧ t.dt.value = 1 ∧
      ∀ w x, fetchWord s = .ok w → decodeWord w ≠ .ok (.lddt x) := by
  refine ⟨_, _, rfl, rfl, rfl, fun w x h => ?_⟩
  have hw : (0x6A02 : Word) = w := Except.ok.inj h
  subst hw
  exact fun h => by cases h

theorem witness_ToneFollowsTheSoundTimer :
    (∃ s t : State, s = poised (base.setSt ⟨2, 1⟩) (env 1) 0x6A02 ∧ step s = .next t ∧ s.beep = false ∧ t.beep = true) ∧
    (∃ s t : State, s = poised ((base.setSt ⟨1, 1⟩).setBeep true) (env 1) 0x6A02 ∧ step s = .next t ∧ s.beep = true ∧
      t.beep = false) := ⟨⟨_, _, rfl, rfl, rfl, rfl⟩, ⟨_, _, rfl, rfl, rfl, rfl⟩⟩

end Sys2Proof.Tests
end

section
/-! Faults of the handlers and the step in which the engine halts (00_scope.md R10; 60_exceptions.md R185 to R187). -/

namespace Sys2Proof.Machine

variable {i : Instr} {s t : State}

/-- The fault each handler can raise, with the address of its record (R187, R186). -/
inductive HandlerFault : Instr → FaultCode → Option Word → Prop where
  | ret (n : Nibble) : HandlerFault (.ret n) .stackUnderflow none
  | call (nnn : Addr12) : HandlerFault (.call nnn) .stackOverflow none
  | drw (x y : Reg) (n : Fin 16) {ea : Word} (h : memSize ≤ ea.toNat) : HandlerFault (.drw x y n) .addressFault (some ea)
  | ldbcd (x : Reg) {ea : Word} (h : memSize ≤ ea.toNat) : HandlerFault (.ldbcd x) .addressFault (some ea)
  | ldrw (x : Reg) {ea : Word} (h : memSize ≤ ea.toNat) : HandlerFault (.ldrw x) .addressFault (some ea)
  | ldrs (x : Reg) {ea : Word} (h : memSize ≤ ea.toNat) : HandlerFault (.ldrs x) .addressFault (some ea)

/-- The handler of `i` left `HALT` alone, or did nothing but raise a fault of its own. -/
def KeepsHaltOrRaises (i : Instr) (s t : State) : Prop :=
  t.halt = s.halt ∨ ∃ code addr, HandlerFault i code addr ∧ t = s.raise code (some (encode i)) addr

theorem KeepsHaltOrRaises.of_stackViolation {c : FaultCode} (hi : HandlerFault i c none) :
    KeepsHaltOrRaises i s (s.stackViolation c (encode i)) := by
  rcases State.stackViolation_cases s c (encode i) with h | h
  · exact .inr ⟨c, none, hi, h⟩
  · exact .inl (by rw [h, State.advance_halt])

theorem KeepsHaltOrRaises.of_checked {n : Nat} {access : State → State} (ha : (access s).halt = s.halt)
    (hi : ∀ {ea : Word}, memSize ≤ ea.toNat → HandlerFault i .addressFault (some ea)) :
    KeepsHaltOrRaises i s (s.checked n (encode i) access) := by
  rcases State.checked_cases s n (encode i) access with h | ⟨ea, hea, h⟩
  · exact .inl (by rw [h, ha])
  · exact .inr ⟨.addressFault, some ea, hi hea, h⟩

/-- All that a handler can do to `HALT`: six of them can raise their fault, the other 29 never touch it. -/
theorem exec_keepsHaltOrRaises (h : exec i s = .next t) : KeepsHaltOrRaises i s t := by
  cases i with
  | ret n =>
    cases h
    split
    · exact .inl rfl
    · exact .of_stackViolation (.ret n)
  | call nnn =>
    cases h
    split
    · exact .inl rfl
    · exact .of_stackViolation (.call nnn)
  | ldk x =>
    cases h
    split <;> exact .inl rfl
  | drw x y n => cases h; exact .of_checked rfl (.drw x y n)
  | ldbcd x => cases h; exact .of_checked rfl (.ldbcd x)
  | ldrw x => cases h; exact .of_checked rfl (.ldrw x)
  | ldrs x => cases h; exact .of_checked rfl (.ldrs x)
  | _ => cases h; exact .inl rfl

/-- A handler that leaves a fault record in a running state did nothing but raise a fault of its own. -/
theorem exec_eq_raise_of_halt {r : FaultRecord} (hs : s.halt = none) (h : exec i s = .next t) (ht : t.halt = some r) :
    ∃ code addr, HandlerFault i code addr ∧ t = s.raise code (some (encode i)) addr := by
  rcases exec_keepsHaltOrRaises h with hk | hr
  · simp [hk, hs] at ht
  · exact hr

theorem State.raise_eq_of_halt {code : FaultCode} {word addr : Option Word} {r : FaultRecord}
    (h : (s.raise code word addr).halt = some r) : r.pc = s.pc ∧ s.raise code word addr = s.setHalt r := by
  cases h
  exact ⟨rfl, rfl⟩

@[simp] theorem State.finishCycle_halt (s : State) : s.finishCycle.halt = s.halt := by
  rw [State.finishCycle_eq]

@[simp] theorem State.endCycle_halt (s : State) : s.endCycle.halt = s.halt := by
  unfold State.endCycle
  split
  · rfl
  · split
    · exact State.takeInput_halt s
    · exact State.finishCycle_halt s

/-- A step that halts a running engine raises one fault in the cycle it has entered, and does nothing more. -/
theorem step_eq_raise_of_halt {r : FaultRecord} (hs : s.halt = none) (h : step s = .next t) (ht : t.halt = some r) :
    s.samplePause.paused = false ∧ ∃ code word addr, t = s.samplePause.enterCycle.raise code word addr := by
  rcases step_cases h with ⟨hhalt, -⟩ | ⟨-, -, rfl⟩ | ⟨-, hp, ea, -, rfl⟩ | ⟨-, hp, w, e, -, -, rfl⟩ |
    ⟨-, hp, w, i, u, -, -, hx, rfl⟩
  · simp [hs] at hhalt
  · simp [State.samplePause, hs] at ht
  · exact ⟨hp, _, _, _, rfl⟩
  · exact ⟨hp, _, _, _, rfl⟩
  · rw [State.endCycle_halt] at ht
    have hb : s.samplePause.enterCycle.halt = none := by rw [State.begun_eq s hp, hs]
    obtain ⟨code, addr, -, hu⟩ := exec_eq_raise_of_halt hb hx ht
    exact ⟨hp, code, some (encode i), addr, by rw [State.endCycle_of_halted (by simp [ht]), hu]⟩

end Sys2Proof.Machine

namespace Sys2Proof.Proofs

open Sys2Proof Sys2Proof.Machine

/-- Settles O19: a handler that leaves a record did nothing but raise its fault. -/
theorem faultingHandlerChangesNothing : Obligations.FaultingHandlerChangesNothing := by
  intro i s t r hs h ht
  obtain ⟨code, addr, -, rfl⟩ := exec_eq_raise_of_halt hs h ht
  exact (State.raise_eq_of_halt ht).2

/-- Settles O20: the halting step raises its fault in the state of the cycle it has entered, which differs from the old
one in `PAUSED`, the wait and the record of pulses alone. -/
theorem haltingStepIsPrecise : Obligations.HaltingStepIsPrecise := by
  intro s t r hs h ht
  obtain ⟨hp, code, word, addr, rfl⟩ := step_eq_raise_of_halt hs h ht
  obtain ⟨hpc, heq⟩ := State.raise_eq_of_halt ht
  rw [State.begun_eq s hp] at hpc heq ⊢
  exact ⟨hpc, heq⟩

end Sys2Proof.Proofs
end

section
/-! Each handler's effect on the state, said once, and what the table of 10_state.md section 9 reads off it. -/

namespace Sys2Proof.Machine

variable {i : Instr} {s t : State} {x : Reg}

/-- The instruction writes an ordinary value to `V[x]`, its destination, and writes no flag (42_alu.md R131 to R136,
R142; 45_keypad_timer_ops.md R173, R174). -/
inductive Destination : Instr → Reg → Prop where
  | ldKk (x : Reg) (kk : Byte) : Destination (.ldKk x kk) x
  | addKk (x : Reg) (kk : Byte) : Destination (.addKk x kk) x
  | ldVy (x y : Reg) : Destination (.ldVy x y) x
  | or (x y : Reg) : Destination (.or x y) x
  | and (x y : Reg) : Destination (.and x y) x
  | xor (x y : Reg) : Destination (.xor x y) x
  | rnd (x : Reg) (kk : Byte) : Destination (.rnd x kk) x
  | ldvdt (x : Reg) : Destination (.ldvdt x) x
  | ldk (x : Reg) : Destination (.ldk x) x

theorem Destination.index (h : Destination i x) : dispatchIndex i ∈ [8, 9, 10, 11, 12, 13, 22, 26, 27] := by
  cases h <;> simp [dispatchIndex]

/-- All that the handler of `i` can do to a state. -/
inductive HandlerEffect (i : Instr) (s : State) : State → Prop where
  | fault {code : FaultCode} {addr : Option Word} (h : HandlerFault i code addr) :
      HandlerEffect i s (s.raise code (some (encode i)) addr)
  | goto (a : Word) : HandlerEffect i s (s.setPc a)
  | write {x : Reg} (b : Byte) (h : Destination i x) : HandlerEffect i s (s.setV x b).advance
  | flagged (x : Reg) (b : Byte) (c : Bool) (h : dispatchIndex i ∈ [14, 15, 16, 17, 18]) :
      HandlerEffect i s (s.writeResult x b c)
  | draw (f : FrameBuffer) (c : Bool) (h : dispatchIndex i = 23) : HandlerEffect i s ((s.setFb f).setFlag c).advance
  | loadBlock (x : Reg) (bs : List Byte) (h : i = .ldrs x) : HandlerEffect i s (s.setRegBlock x bs).advance
  | store (bs : List Byte) (h : dispatchIndex i ∈ [32, 33]) : HandlerEffect i s (s.storeAtI bs).advance
  | index (a : Word) (h : dispatchIndex i ∈ [20, 30, 31]) : HandlerEffect i s (s.setI a).advance
  | clear (f : FrameBuffer) (h : dispatchIndex i = 1) : HandlerEffect i s (s.setFb f).advance
  | armDt (b : Byte) (h : dispatchIndex i = 28) :
      HandlerEffect i s (s.setDt (Timer.load s.params.interval b)).advance
  | armSt (b : Byte) (h : dispatchIndex i = 29) :
      HandlerEffect i s (s.setSt (Timer.load s.params.interval b)).advance
  | pop (k : Fin 16) (hk : s.sp.toNat = k.val + 1) (h : dispatchIndex i = 2) :
      HandlerEffect i s ((s.setSp (s.sp - 1)).setPc s.stack[k.val])
  | push (a target : Word) (hsp : s.sp.toNat < 16) (h : dispatchIndex i = 4) :
      HandlerEffect i s ((s.push a hsp).setPc target)
  | wait (x : Reg) (h : i = .ldk x) : HandlerEffect i s (s.setWaiting true)

theorem HandlerEffect.of_stackViolation {c : FaultCode} (hi : HandlerFault i c none) :
    HandlerEffect i s (s.stackViolation c (encode i)) := by
  rcases State.stackViolation_cases s c (encode i) with h | h
  · exact h ▸ .fault hi
  · exact h ▸ .goto _

theorem HandlerEffect.of_checked {n : Nat} {access : State → State} (ha : HandlerEffect i s (access s))
    (hi : ∀ {ea : Word}, memSize ≤ ea.toNat → HandlerFault i .addressFault (some ea)) :
    HandlerEffect i s (s.checked n (encode i) access) := by
  rcases State.checked_cases s n (encode i) access with h | ⟨ea, hea, h⟩
  · exact h ▸ ha
  · exact h ▸ .fault (hi hea)

/-- Every handler has one of these effects. -/
theorem exec_effect (h : exec i s = .next t) : HandlerEffect i s t := by
  cases i with
  | ret n =>
    cases h
    split
    · rename_i k hk
      exact .pop k (State.popIndex_eq_some hk) rfl
    · exact .of_stackViolation (.ret n)
  | call nnn =>
    cases h
    split
    · rename_i hsp
      exact .push _ _ hsp rfl
    · exact .of_stackViolation (.call nnn)
  | ldk x =>
    cases h
    split
    · exact .write _ (.ldk x)
    · exact .wait x rfl
  | drw x y n => cases h; exact .of_checked (.draw _ _ rfl) (.drw x y n)
  | ldbcd x => cases h; exact .of_checked (.store _ (by simp [dispatchIndex])) (.ldbcd x)
  | ldrw x => cases h; exact .of_checked (.store _ (by simp [dispatchIndex])) (.ldrw x)
  | ldrs x => cases h; exact .of_checked (.loadBlock x _ rfl) (.ldrs x)
  | sys | jp | seKk | sneKk | seVy | sneVy | jpv0 | skp | sknp => cases h; exact .goto _
  | ldKk x kk => cases h; exact .write _ (.ldKk x kk)
  | addKk x kk => cases h; exact .write _ (.addKk x kk)
  | ldVy x y => cases h; exact .write _ (.ldVy x y)
  | or x y => cases h; exact .write _ (.or x y)
  | and x y => cases h; exact .write _ (.and x y)
  | xor x y => cases h; exact .write _ (.xor x y)
  | rnd x kk => cases h; exact .write _ (.rnd x kk)
  | ldvdt x => cases h; exact .write _ (.ldvdt x)
  | add | sub | shr | subn | shl => cases h; exact .flagged _ _ _ (by simp [dispatchIndex])
  | ldi | addi | ldf => cases h; exact .index _ (by simp [dispatchIndex])
  | cls n => cases h; exact .clear _ rfl
  | lddt x => cases h; exact .armDt _ rfl
  | ldst x => cases h; exact .armSt _ rfl

theorem HandlerFault.index {code : FaultCode} {addr : Option Word} (h : HandlerFault i code addr) :
    dispatchIndex i ∈ [2, 4, 23, 32, 33, 34] := by
  cases h <;> simp [dispatchIndex]

/-- After a flag-writing opcode that raised no fault, `VF` holds a flag. -/
theorem exec_readV_flag (hi : dispatchIndex i ∈ [14, 15, 16, 17, 18, 23]) (h : exec i s = .next t)
    (ht : t.halt = none) : ∃ c, t.readV 15 = flagByte c := by
  cases i with
  | add | sub | shr | subn | shl =>
    cases h
    exact ⟨_, State.readV_writeResult _ 15 _ _⟩
  | drw x y n =>
    cases h
    rcases State.checked_cases s n.val (encode (.drw x y n)) fun s => (s.blitAtI x y n.val).advance
      with hc | ⟨ea, -, hc⟩
    · exact ⟨_, by rw [hc, State.readV_advance]; exact State.readV_setFlag_self _⟩
    · simp [hc] at ht
  | _ => simp [dispatchIndex] at hi

/-- An instruction that writes no flag changes a register only where it names it as a destination. -/
theorem exec_readV_changed {r : Reg} (hi : dispatchIndex i ∉ [14, 15, 16, 17, 18, 23]) (h : exec i s = .next t)
    (hne : t.readV r ≠ s.readV r) : Destination i r ∨ ∃ x, i = .ldrs x ∧ r.val ≤ x.val := by
  cases exec_effect h with
  | @write x b hd =>
    have hx : x = r := by
      by_contra hx
      exact hne (State.readV_setV_ne b hx)
    exact .inl (hx ▸ hd)
  | loadBlock x bs hx =>
    refine .inr ⟨x, hx, ?_⟩
    by_contra hr
    exact hne (by simp [State.readV_setRegBlock, hr])
  | flagged x b c hf => simp at hf hi; omega
  | draw f c hf => simp [hf] at hi
  | _ => exact absurd rfl hne

end Sys2Proof.Machine

namespace Sys2Proof.Proofs

open Sys2Proof Sys2Proof.Machine

/-- Settles O22: what each effect writes, and which instructions have it. -/
theorem onlyListedInstructionsWrite : Obligations.OnlyListedInstructionsWrite := by
  intro i s t h
  cases exec_effect h with
  | fault hf => have := hf.index; simp at this ⊢; omega
  | goto a => simp
  | write b hd => have := hd.index; simp at this ⊢; omega
  | flagged x b c hi => simp [State.writeResult] at hi ⊢; omega
  | draw f c hi => simp [hi]
  | loadBlock x bs hi => simp [hi, dispatchIndex]
  | store bs hi => simp at hi ⊢; omega
  | index a hi => simp at hi ⊢; omega
  | clear f hi => simp [hi]
  | armDt b hi => simp [hi]
  | armSt b hi => simp [hi]
  | pop k hk hi => simp [hi]
  | push a target hsp hi => simp [hi, State.push]
  | wait x hi => simp [hi, dispatchIndex]

/-- Settles O23: the six opcodes leave a flag's byte in `VF`, and the destinations of the others are their own. -/
theorem flagRegisterDiscipline : Obligations.FlagRegisterDiscipline := by
  intro i s t _ h
  refine ⟨fun hi ht => ?_, fun hi hne => ?_⟩
  · obtain ⟨c, hc⟩ := exec_readV_flag hi h ht
    exact hc ▸ flagByte_eq_zero_or_one c
  · rcases exec_readV_changed hi h hne with hd | ⟨x, rfl, hx⟩
    · cases hd <;> simp
    · have : x = 15 := Fin.ext (by omega)
      simp [this]

end Sys2Proof.Proofs
end

section
/-! The environment: which handlers do not look at it, and a step in which `PAUSE` is high. -/

namespace Sys2Proof.Machine

variable {i : Instr} {s t : State} {fs : List Inputs} {n : Nat}

/-- The state with other answers of the environment. -/
def State.withEnv (s : State) (fs : List Inputs) (n : Nat) : State := { s with inputs := fs, inputIndex := n }

theorem State.popIndex_withEnv (s : State) : (s.withEnv fs n).popIndex = s.popIndex := rfl

theorem State.stackViolation_withEnv (s : State) (c : FaultCode) (w : Word) :
    (s.withEnv fs n).stackViolation c w = (s.stackViolation c w).withEnv fs n := by
  cases hp : s.params.stackPolicy
  · rw [State.stackViolation_strict hp, State.stackViolation_strict (s := s.withEnv fs n) hp]
    rfl
  · rw [State.stackViolation_permissive hp, State.stackViolation_permissive (s := s.withEnv fs n) hp]
    rfl

/-- The range check does not look at the environment. -/
theorem State.checked_withEnv {access : State → State} (ha : access (s.withEnv fs n) = (access s).withEnv fs n)
    (k : Nat) (w : Word) : (s.withEnv fs n).checked k w access = (s.checked k w access).withEnv fs n := by
  by_cases hok : AccessOk s k
  · rw [State.checked_of_ok hok, State.checked_of_ok (s := s.withEnv fs n) hok, ha]
  · rw [State.checked_of_not_ok hok, State.checked_of_not_ok (s := s.withEnv fs n) hok]
    rfl

/-- All handlers but those of RND, SKP, SKNP and LDK do the same under every environment. -/
theorem exec_withEnv (hi : dispatchIndex i ∉ [22, 24, 25, 27]) (h : exec i s = .next t) :
    exec i (s.withEnv fs n) = .next (t.withEnv fs n) := by
  cases i with
  | rnd | skp | sknp | ldk => simp [dispatchIndex] at hi
  | ret k =>
    cases h
    simp only [exec, execRet, State.popIndex_withEnv]
    split
    · rfl
    · rw [State.stackViolation_withEnv]
  | call nnn =>
    cases h
    by_cases hsp : s.sp.toNat < 16
    · have hsp' : (s.withEnv fs n).sp.toNat < 16 := hsp
      simp only [exec, execCall, hsp, hsp', dif_pos]
      rfl
    · have hsp' : ¬ (s.withEnv fs n).sp.toNat < 16 := hsp
      simp only [exec, execCall, hsp, hsp', dif_neg, not_false_iff, State.stackViolation_withEnv]
  | drw | ldbcd | ldrw | ldrs =>
    cases h
    exact congrArg Host.Outcome.next (State.checked_withEnv rfl _ _)
  | _ => cases h; rfl

theorem step_of_paused (hh : s.halt = none) (hp : s.samplePause.paused = true) :
    step s = .next s.samplePause.takeInput := by
  simp [step, runCycle, hh, hp]

/-- A step with `PAUSE` high samples it and uses up the environment's answers (R98). -/
theorem step_of_pause_high {f : Inputs} (hh : s.halt = none) (hw : s.waiting = false) (hin : s.inputs = f :: fs)
    (hf : f.pause = true) :
    step s = .next { s with paused := true, inputs := fs, inputIndex := s.inputIndex + 1 } := by
  have hp : s.samplePause.paused = true := by
    rw [State.samplePause_paused_of_not_waiting hw, State.input, hin]
    exact hf
  rw [step_of_paused hh hp]
  simp [State.samplePause, State.takeInput, State.setPaused, State.input, hw, hin, hf]

theorem core_run_succ (h : step s = .next t) (k : Nat) : core.run (k + 1) s = core.run k t := by
  simp [Host.Core.run, core, h]

/-- A run of paused steps: induction over the answers it uses up. -/
theorem core_run_of_pause_high {rest : List Inputs} (hh : s.halt = none) (hw : s.waiting = false)
    (hin : s.inputs = fs ++ rest) (hne : fs ≠ []) (hf : ∀ f ∈ fs, f.pause = true) :
    core.run fs.length s =
      .next { s with paused := true, inputs := rest, inputIndex := s.inputIndex + fs.length } := by
  induction fs generalizing s with
  | nil => exact absurd rfl hne
  | cons f gs ih =>
    have hstep := step_of_pause_high (fs := gs ++ rest) hh hw hin (hf f List.mem_cons_self)
    cases gs with
    | nil => exact core_run_succ hstep 0
    | cons g gs =>
      have hrun := ih (s := { s with paused := true, inputs := g :: gs ++ rest, inputIndex := s.inputIndex + 1 })
        hh hw rfl (List.cons_ne_nil g gs) fun k hk => hf k (List.mem_cons_of_mem f hk)
      calc core.run (gs.length + 1 + 1) s
        _ = _ := core_run_succ hstep _
        _ = _ := hrun
        _ = _ := by simp [Nat.add_assoc, Nat.add_comm 1]

end Sys2Proof.Machine

namespace Sys2Proof.Proofs

open Sys2Proof Sys2Proof.Machine

/-- Settles O15, by induction over the answers used up. -/
theorem pausedEngineKeepsItsState : Obligations.PausedEngineKeepsItsState := by
  intro s fs rest hh hw hin hne hf
  exact core_run_of_pause_high hh hw hin hne hf

/-- Settles O24: the other handlers commute with a change of the environment. -/
theorem otherInstructionsIgnoreTheEnvironment : Obligations.OtherInstructionsIgnoreTheEnvironment := by
  intro i s t fs n hi h
  exact exec_withEnv hi h

end Sys2Proof.Proofs
end

section
/-! The fields of a word put together again: the word of the instruction it decodes to (30_encoding.md R70 to R77). -/

namespace Sys2Proof

variable {w : Word} {i : Instr} {c : Nat}

theorem fieldKK_toNat_eq_op3 (w : Word) : (fieldKK w).toNat = op3 w := by rw [fieldKK_toNat, op3_eq]

theorem encodeNNN_fields (hc : op1 w = c) : encodeNNN c (fieldNNN w) = w := by
  apply BitVec.eq_of_toNat_eq
  rw [op1_eq] at hc
  have := w.isLt
  rw [encodeNNN_toNat (by omega), fieldNNN_toNat]
  omega

theorem encodeXKK_fields {kk : Nat} (hc : op1 w = c) (hk : op3 w = kk) : encodeXKK c (fieldX w) kk = w := by
  apply BitVec.eq_of_toNat_eq
  rw [op1_eq] at hc
  rw [op3_eq] at hk
  have := w.isLt
  rw [encodeXKK_toNat (by omega) (by omega), fieldX_val]
  omega

theorem encodeXYN_fields {n : Nat} (hc : op1 w = c) (hn : op2 w = n) :
    encodeXYN c (fieldX w) (fieldY w) n = w := by
  apply BitVec.eq_of_toNat_eq
  rw [op1_eq] at hc
  rw [op2_eq] at hn
  have := w.isLt
  rw [encodeXYN_toNat (by omega) (by omega), fieldX_val, fieldY_val]
  omega

theorem encodeXKK_fieldKK (hc : op1 w = c) : encodeXKK c (fieldX w) (fieldKK w).toNat = w :=
  encodeXKK_fields hc (fieldKK_toNat_eq_op3 w).symm

theorem encodeXYN_fieldN (hc : op1 w = c) : encodeXYN c (fieldX w) (fieldY w) (fieldN w).val = w :=
  encodeXYN_fields hc (by rw [op2_eq, fieldN_val])

theorem encodeXYN_ignoredLow (hc : op1 w = c) : encodeXYN c (fieldX w) (fieldY w) (ignoredLow w).toNat = w :=
  encodeXYN_fields hc (by rw [op2_eq, ignoredLow_toNat])

theorem encodeClass0_fields {b : Nat} (hc : op1 w = 0) (hb : op3 w = b) : encodeClass0 (ignoredHigh w) b = w := by
  apply BitVec.eq_of_toNat_eq
  rw [op1_eq] at hc
  rw [op3_eq] at hb
  rw [encodeClass0_toNat (by omega), ignoredHigh_toNat]
  omega

theorem encode_decodeClass0 (hc : op1 w = 0) : encode (decodeClass0 w) = w := by
  unfold decodeClass0
  split
  · exact encodeClass0_fields hc ‹_›
  · split
    · exact encodeClass0_fields hc ‹_›
    · exact encodeNNN_fields hc

theorem encode_of_decodeClass8 (hc : op1 w = 8) (h : decodeClass8 w = .ok i) : encode i = w := by
  unfold decodeClass8 at h
  split at h <;> cases h <;> exact encodeXYN_fields hc ‹_›

theorem encode_decodeClassE (hc : op1 w = 0xE) : encode (decodeClassE w) = w := by
  unfold decodeClassE
  split
  · exact encodeXKK_fields hc ‹_›
  · exact encodeXKK_fieldKK hc

theorem encode_of_decodeClassF (hc : op1 w = 0xF) (h : decodeClassF w = .ok i) : encode i = w := by
  unfold decodeClassF at h
  split at h <;> cases h <;> exact encodeXKK_fields hc ‹_›

/-- A word that is an instruction is the word of that instruction. -/
theorem encode_of_decodeWord (h : decodeWord w = .ok i) : encode i = w := by
  unfold decodeWord at h
  split at h
  case h_1 hc => cases h; exact encode_decodeClass0 hc
  case h_2 hc | h_3 hc | h_11 hc | h_12 hc => cases h; exact encodeNNN_fields hc
  case h_4 hc | h_5 hc | h_7 hc | h_8 hc | h_13 hc => cases h; exact encodeXKK_fieldKK hc
  case h_6 hc | h_10 hc => cases h; exact encodeXYN_ignoredLow hc
  case h_9 hc => exact encode_of_decodeClass8 hc h
  case h_14 hc => cases h; exact encodeXYN_fieldN hc
  case h_15 hc => cases h; exact encode_decodeClassE hc
  case h_16 =>
    have hc : op1 w = 0xF := by
      simp only [imp_false, op1_eq] at *
      have := w.isLt
      omega
    exact encode_of_decodeClassF hc h

end Sys2Proof
end

section
/-! The invariant, kept by every step: its data part by each effect of a handler, its fault record where a fault is
raised, and its wait where LDK begins or goes on to wait. -/

namespace Sys2Proof.Machine

variable {i : Instr} {s t : State} {interval : Nat}

/-! Timers. -/

/-- An update keeps a timer consistent (R192). -/
theorem Timer.Ok.update {t : Timer} (h : t.Ok interval) (e : Nat) : (t.update interval e).1.Ok interval := by
  obtain ⟨hz, hle⟩ := h
  rcases Timer.update_cases t interval e with ⟨-, hu⟩ | ⟨hv, -, hu⟩ | ⟨-, -, hu⟩ | ⟨-, hv, hr, hu⟩
  · exact hu ▸ ⟨hz, hle⟩
  · exact hu ▸ ⟨fun h0 => absurd h0 hv, by simp only; omega⟩
  · exact hu ▸ ⟨fun _ => rfl, by simp only; omega⟩
  · exact hu ▸ ⟨fun h0 => absurd (sub_eq_zero.mp h0) hv, by simp only; omega⟩

/-- A write arms a consistent timer (R191). -/
theorem Timer.Ok.load (interval : Nat) (b : Byte) : (Timer.load interval b).Ok interval := by
  refine ⟨fun hb => if_pos hb, ?_⟩
  unfold Timer.load
  split <;> simp

/-! The data part. -/

/-- The part of the invariant that neither the fault record nor the wait concerns. -/
structure DataOk (s : State) : Prop where
  memCanonical : s.mem.wf = true
  spBound      : s.sp.toNat ≤ 16
  intervalPos  : 0 < s.params.interval
  dtOk         : s.dt.Ok s.params.interval
  stOk         : s.st.Ok s.params.interval

/-- The data part rests on memory, `SP`, the parameters and the timers alone. -/
theorem DataOk.congr (hs : DataOk s) (hm : t.mem = s.mem) (hsp : t.sp = s.sp) (hp : t.params = s.params)
    (hdt : t.dt = s.dt) (hst : t.st = s.st) : DataOk t where
  memCanonical := hm ▸ hs.memCanonical
  spBound := hsp ▸ hs.spBound
  intervalPos := hp ▸ hs.intervalPos
  dtOk := hdt ▸ hp ▸ hs.dtOk
  stOk := hst ▸ hp ▸ hs.stOk

theorem State.Inv.dataOk (h : s.Inv) : DataOk s where
  memCanonical := h.memCanonical
  spBound := h.spBound
  intervalPos := h.intervalPos
  dtOk := h.dtOk
  stOk := h.stOk

theorem State.Inv.of_dataOk (h : DataOk s) (hh : ∀ r, s.halt = some r → HaltOk s r)
    (hw : s.waiting = true → WaitOk s) : s.Inv where
  memCanonical := h.memCanonical
  spBound := h.spBound
  intervalPos := h.intervalPos
  dtOk := h.dtOk
  stOk := h.stOk
  haltOk := hh
  waitOk := hw

/-- Every effect of a handler keeps the data part. -/
theorem HandlerEffect.dataOk (h : HandlerEffect i s t) (hs : DataOk s) : DataOk t := by
  have ⟨hm, hsp, hi, hdt, hst⟩ := hs
  cases h with
  | store bs => exact ⟨storeBytes_wf bs s.i hm, hsp, hi, hdt, hst⟩
  | armDt b => exact ⟨hm, hsp, hi, .load _ b, hst⟩
  | armSt b => exact ⟨hm, hsp, hi, hdt, .load _ b⟩
  | pop k hk =>
    have hpop : (s.sp - 1).toNat ≤ 16 := by bv_omega
    exact ⟨hm, hpop, hi, hdt, hst⟩
  | push a target hlt =>
    have hpush : (s.sp + 1).toNat ≤ 16 := by bv_omega
    exact ⟨hm, hpush, hi, hdt, hst⟩
  | loadBlock x bs => exact hs.congr (by simp) (by simp) (by simp) (by simp) (by simp)
  | _ => exact hs.congr rfl rfl rfl rfl rfl

@[simp] theorem State.finishCycle_waiting (s : State) : s.finishCycle.waiting = s.waiting := by
  rw [State.finishCycle_eq]

/-- The end of a completed cycle keeps the data part. -/
theorem DataOk.finishCycle (h : DataOk s) : DataOk s.finishCycle := by
  obtain ⟨hm, hsp, hi, hdt, hst⟩ := h
  rw [State.finishCycle_eq]
  exact ⟨hm, hsp, hi, hdt.update _, hst.update _⟩

/-! The fault record. -/

/-- An address at which a fetch faults is out of range. -/
theorem fetchWord_error_outside {ea : Word} (h : fetchWord s = .error ea) : memSize ≤ ea.toNat := by
  unfold fetchWord at h
  split at h
  · rename_i a ha
    cases h
    exact firstOutOfRange_outside ha
  · cases h

/-- The record of a fetch fault (R186). -/
theorem HaltOk.of_fetchWord_error {ea : Word} (h : fetchWord s = .error ea) :
    HaltOk (s.raise .addressFault none (some ea)) ⟨.addressFault, s.pc, none, some ea⟩ where
  pcHeld := rfl
  addrIff := by simp
  outside a ha := Option.some.inj ha ▸ fetchWord_error_outside h
  wordHeld _ hw := nomatch hw
  noWord _ := ⟨ea, rfl, h⟩

/-- The record of a fault after the fetch, at decode or in a handler (R186). -/
theorem HaltOk.of_fetchWord_ok {w : Word} {code : FaultCode} {addr : Option Word} (h : fetchWord s = .ok w)
    (hiff : code = .addressFault ↔ addr.isSome) (hout : ∀ ea, addr = some ea → memSize ≤ ea.toNat) :
    HaltOk (s.raise code (some w) addr) ⟨code, s.pc, some w, addr⟩ where
  pcHeld := rfl
  addrIff := hiff
  outside := hout
  wordHeld _ hw := Option.some.inj hw ▸ h
  noWord hw := nomatch hw

theorem HandlerFault.addr_iff {code : FaultCode} {addr : Option Word} (h : HandlerFault i code addr) :
    code = .addressFault ↔ addr.isSome := by
  cases h <;> simp

theorem HandlerFault.outside {code : FaultCode} {addr : Option Word} (h : HandlerFault i code addr) :
    ∀ ea, addr = some ea → memSize ≤ ea.toNat := by
  intro ea ha
  cases h with
  | ret | call => cases ha
  | drw _ _ _ hea | ldbcd _ hea | ldrw _ hea | ldrs _ hea => exact Option.some.inj ha ▸ hea

/-- A fault raised in a cycle under way leaves the invariant, where its record is good. -/
theorem State.Inv.raise {code : FaultCode} {word addr : Option Word} (h : DataOk s) (hw : s.waiting = false)
    (hr : HaltOk (s.raise code word addr) ⟨code, s.pc, word, addr⟩) : (s.raise code word addr).Inv :=
  .of_dataOk (h.congr rfl rfl rfl rfl rfl) (fun _ hrec => Option.some.inj hrec ▸ hr)
    fun hwait => by simp [hw] at hwait

/-! The wait. -/

/-- A handler that leaves the model waiting, where it was not, is LDK's, and has done nothing else (R99). -/
theorem exec_eq_setWaiting (hs : s.waiting = false) (h : exec i s = .next t) (ht : t.waiting = true) :
    t = s.setWaiting true ∧ ∃ x, i = .ldk x := by
  cases exec_effect h with
  | wait x hi => exact ⟨rfl, x, hi⟩
  | _ => exact absurd (hs.symm.trans ht) Bool.false_ne_true

/-! The cycle. -/

/-- A cycle under way, as its handler finds it: the word at `PC` is that of `i`. -/
structure Executing (i : Instr) (w : Word) (s : State) : Prop where
  data       : DataOk s
  running    : s.halt = none
  unpaused   : s.paused = false
  notWaiting : s.waiting = false
  fetched    : fetchWord s = .ok w
  decoded    : decodeWord w = .ok i

/-- The handler of the word at `PC`, and the end of its cycle, leave the invariant. -/
theorem Executing.inv_endCycle {w : Word} (hs : Executing i w s) (h : exec i s = .next t) : t.endCycle.Inv := by
  have hdata : DataOk t := (exec_effect h).dataOk hs.data
  cases hh : t.halt with
  | some r =>
    obtain ⟨code, addr, hf, rfl⟩ := exec_eq_raise_of_halt hs.running h hh
    rw [State.endCycle_of_halted rfl, encode_of_decodeWord hs.decoded]
    exact .raise hs.data hs.notWaiting (.of_fetchWord_ok hs.fetched hf.addr_iff hf.outside)
  | none =>
    cases hw : t.waiting with
    | true =>
      obtain ⟨rfl, x, rfl⟩ := exec_eq_setWaiting hs.notWaiting h hw
      rw [State.endCycle_of_waiting hh hw]
      have hwait : WaitOk (s.setWaiting true).takeInput := ⟨hh, hs.unpaused, w, x, hs.fetched, hs.decoded⟩
      exact .of_dataOk (hdata.congr rfl rfl rfl rfl rfl) (fun r hr => by simp [hs.running] at hr) fun _ => hwait
    | false =>
      rw [State.endCycle_of_complete hh hw]
      exact .of_dataOk hdata.finishCycle (fun r hr => by simp [hh] at hr)
        fun hwait => by simp [hw] at hwait

/-- A paused step keeps the invariant (R98). -/
theorem State.Inv.takeInput_samplePause (h : s.Inv) (hh : s.halt = none) (hp : s.samplePause.paused = true) :
    s.samplePause.takeInput.Inv := by
  have hw : s.waiting = false := by
    by_contra hw
    rw [State.samplePause_paused_of_waiting (by simpa using hw)] at hp
    cases hp
  exact .of_dataOk (h.dataOk.congr rfl rfl rfl rfl rfl) (fun r hr => by simp [State.samplePause, hh] at hr)
    fun hwait => by simp [State.samplePause, hw] at hwait

theorem State.begun_dataOk (h : DataOk s) (hp : s.samplePause.paused = false) :
    DataOk s.samplePause.enterCycle := by
  rw [State.begun_eq s hp]
  exact h.congr rfl rfl rfl rfl rfl

theorem State.begun_fetchWord (hp : s.samplePause.paused = false) :
    fetchWord s.samplePause.enterCycle = fetchWord s := by
  rw [State.begun_eq s hp]
  exact fetchWord_congr rfl rfl rfl

theorem State.begun_waiting (hp : s.samplePause.paused = false) : s.samplePause.enterCycle.waiting = false := by
  rw [State.begun_eq s hp]

/-- A cycle entered with `PAUSED` at 0 on a word that decodes finds the handler of that word (R90). -/
theorem State.begun_executing {w : Word} (h : DataOk s) (hh : s.halt = none) (hp : s.samplePause.paused = false)
    (hf : fetchWord s = .ok w) (hd : decodeWord w = .ok i) : Executing i w s.samplePause.enterCycle where
  data := State.begun_dataOk h hp
  running := by rw [State.begun_eq s hp, hh]
  unpaused := by rw [State.begun_eq s hp]
  notWaiting := State.begun_waiting hp
  fetched := (State.begun_fetchWord hp).trans hf
  decoded := hd

end Sys2Proof.Machine

namespace Sys2Proof.Proofs

open Sys2Proof Sys2Proof.Machine

/-- Settles O10, by the cases of a step. -/
theorem stepKeepsTheInvariant : Obligations.StepKeepsTheInvariant := by
  intro s t hs h
  rcases step_cases h with ⟨-, rfl⟩ | ⟨hh, hp, rfl⟩ | ⟨-, hp, ea, hf, rfl⟩ | ⟨-, hp, w, e, hf, -, rfl⟩ |
    ⟨hh, hp, w, i, u, hf, hd, hx, rfl⟩
  · exact hs
  · exact hs.takeInput_samplePause hh hp
  · exact .raise (State.begun_dataOk hs.dataOk hp) (State.begun_waiting hp)
      (.of_fetchWord_error ((State.begun_fetchWord hp).trans hf))
  · exact .raise (State.begun_dataOk hs.dataOk hp) (State.begun_waiting hp)
      (.of_fetchWord_ok ((State.begun_fetchWord hp).trans hf) (by simp) (by simp))
  · exact (State.begun_executing hs.dataOk hh hp hf hd).inv_endCycle hx

end Sys2Proof.Proofs
end

section
/-! LDRW over the instruction that follows it: the registers stand in memory where the next fetch reads
(43_index_memory.md R155; 20_memory.md R62). -/

namespace Sys2Proof.Machine

variable {s : State} {x : Reg}

theorem AccessOk.mono {m n : Nat} (h : AccessOk s n) (hmn : m ≤ n) : AccessOk s m := by
  rcases h with rfl | hwrap | hin
  · exact .inl (Nat.le_zero.mp hmn)
  · exact .inr (.inl hwrap)
  · exact .inr (.inr (by omega))

/-- A fetch at the address in `I` succeeds where two bytes can be accessed from there. -/
theorem fetchWord_of_accessOk (hpc : s.i = s.pc) (h : AccessOk s 2) :
    fetchWord s = .ok (joinBytes (loadByte s.mem s.i) (loadByte s.mem (s.i + 1))) := by
  rw [fetchWord, ← hpc, (firstOutOfRange_eq_none_iff s 2).2 h]

/-- LDRW with its block in range (R155). -/
theorem exec_ldrw_of_accessOk (h : AccessOk s (x.val + 1)) :
    exec (.ldrw x) s = .next (s.storeAtI (s.regBlock x)).advance :=
  congrArg Host.Outcome.next (State.checked_of_ok h _ _)

/-- A register block stored from `I` reads back register by register. -/
theorem loadByte_storeAtI_regBlock (hm : s.mem.wf = true) {k : Reg} (hk : k.val ≤ x.val) :
    loadByte (s.storeAtI (s.regBlock x)).mem (effectiveAddress s.i k.val) = s.readV k := by
  have hlen : (s.regBlock x).length ≤ 4096 := by rw [State.regBlock_length]; omega
  have hlt : k.val < (s.regBlock x).length := by rw [State.regBlock_length]; omega
  calc loadByte (s.storeAtI (s.regBlock x)).mem (effectiveAddress s.i k.val)
    _ = (s.regBlock x)[k.val] := read_storeBytes_at _ s.i hm hlen k.val hlt
    _ = s.readV k := State.regBlock_getElem s x k hlt

/-- After LDRW of at least `V0` and `V1` over the next instruction, the fetch reads these two registers. -/
theorem fetchWord_storeAtI_regBlock_advance (hm : s.mem.wf = true) (hx : 1 ≤ x.val) (hi : s.i = s.pc + 2)
    (h : AccessOk s (x.val + 1)) :
    fetchWord (s.storeAtI (s.regBlock x)).advance = .ok (joinBytes (s.readV 0) (s.readV 1)) := by
  have hfetch := fetchWord_of_accessOk (s := (s.storeAtI (s.regBlock x)).advance) hi (h.mono (by omega))
  have h0 : loadByte (s.storeAtI (s.regBlock x)).mem s.i = s.readV 0 := by
    simpa [effectiveAddress_zero] using loadByte_storeAtI_regBlock hm (k := 0) (Nat.zero_le x.val)
  have h1 : loadByte (s.storeAtI (s.regBlock x)).mem (s.i + 1) = s.readV 1 :=
    loadByte_storeAtI_regBlock hm (k := 1) hx
  rw [← h0, ← h1]
  exact hfetch

end Sys2Proof.Machine

namespace Sys2Proof.Proofs

open Sys2Proof Sys2Proof.Machine

/-- Settles O46: LDRW leaves `PC` at `I`, where `V0` and `V1` now stand. -/
theorem storeIsSeenByTheNextFetch : Obligations.StoreIsSeenByTheNextFetch := by
  intro x s hm hx hi hok
  exact ⟨_, exec_ldrw_of_accessOk hok, fetchWord_storeAtI_regBlock_advance hm hx hi hok⟩

end Sys2Proof.Proofs
end

section
/-! The fields of an encoded word, and with them the instruction it decodes to (30_encoding.md R71 to R79). -/

namespace Sys2Proof

variable {w : Word} {i : Instr} {c : Nat}

/-! What each field of an encoded word is (R71). -/

section
variable (hc : c < 16) (nnn : Addr12)
include hc

theorem op1_encodeNNN : op1 (encodeNNN c nnn) = c := by
  rw [op1_eq, encodeNNN_toNat hc]
  omega

theorem op3_encodeNNN : op3 (encodeNNN c nnn) = nnn.toNat % 256 := by
  rw [op3_eq, encodeNNN_toNat hc]
  omega

theorem fieldNNN_encodeNNN : fieldNNN (encodeNNN c nnn) = nnn := by
  apply BitVec.eq_of_toNat_eq
  rw [fieldNNN_toNat, encodeNNN_toNat hc]
  omega

end

section
variable {kk : Nat} (hc : c < 16) (hk : kk < 256) (x : Reg)
include hc hk

theorem op1_encodeXKK : op1 (encodeXKK c x kk) = c := by
  rw [op1_eq, encodeXKK_toNat hc hk]
  omega

theorem op3_encodeXKK : op3 (encodeXKK c x kk) = kk := by
  rw [op3_eq, encodeXKK_toNat hc hk]
  omega

theorem fieldX_encodeXKK : fieldX (encodeXKK c x kk) = x := by
  apply Fin.ext
  rw [fieldX_val, encodeXKK_toNat hc hk]
  omega

end

theorem fieldKK_encodeXKK (hc : c < 16) (x : Reg) (kk : Byte) : fieldKK (encodeXKK c x kk.toNat) = kk := by
  apply BitVec.eq_of_toNat_eq
  rw [fieldKK_toNat_eq_op3, op3_encodeXKK hc kk.isLt]

section
variable {n : Nat} (hc : c < 16) (hn : n < 16) (x y : Reg)
include hc hn

theorem op1_encodeXYN : op1 (encodeXYN c x y n) = c := by
  rw [op1_eq, encodeXYN_toNat hc hn]
  omega

theorem op2_encodeXYN : op2 (encodeXYN c x y n) = n := by
  rw [op2_eq, encodeXYN_toNat hc hn]
  omega

theorem fieldX_encodeXYN : fieldX (encodeXYN c x y n) = x := by
  apply Fin.ext
  rw [fieldX_val, encodeXYN_toNat hc hn]
  omega

theorem fieldY_encodeXYN : fieldY (encodeXYN c x y n) = y := by
  apply Fin.ext
  rw [fieldY_val, encodeXYN_toNat hc hn]
  omega

end

theorem fieldN_encodeXYN (hc : c < 16) (x y : Reg) (n : Fin 16) : fieldN (encodeXYN c x y n.val) = n := by
  apply Fin.ext
  rw [fieldN_val, ← op2_eq, op2_encodeXYN hc n.isLt]

theorem ignoredLow_encodeXYN (hc : c < 16) (x y : Reg) (n : Nibble) : ignoredLow (encodeXYN c x y n.toNat) = n := by
  apply BitVec.eq_of_toNat_eq
  rw [ignoredLow_toNat, ← op2_eq, op2_encodeXYN hc n.isLt]

section
variable {b : Nat} (hb : b < 256) (n : Nibble)
include hb

theorem op1_encodeClass0 : op1 (encodeClass0 n b) = 0 := by
  rw [op1_eq, encodeClass0_toNat hb]
  omega

theorem op3_encodeClass0 : op3 (encodeClass0 n b) = b := by
  rw [op3_eq, encodeClass0_toNat hb]
  omega

theorem ignoredHigh_encodeClass0 : ignoredHigh (encodeClass0 n b) = n := by
  apply BitVec.eq_of_toNat_eq
  rw [ignoredHigh_toNat, encodeClass0_toNat hb]
  omega

end

/-! The class nibble selects the class's own decoder (R73). -/

theorem decodeWord_of_class0 (h : op1 w = 0x0) : decodeWord w = .ok (decodeClass0 w) := by simp [decodeWord, h]

theorem decodeWord_of_class5 (h : op1 w = 0x5) :
    decodeWord w = .ok (.seVy (fieldX w) (fieldY w) (ignoredLow w)) := by simp [decodeWord, h]

theorem decodeWord_of_class8 (h : op1 w = 0x8) : decodeWord w = decodeClass8 w := by simp [decodeWord, h]

theorem decodeWord_of_class9 (h : op1 w = 0x9) :
    decodeWord w = .ok (.sneVy (fieldX w) (fieldY w) (ignoredLow w)) := by simp [decodeWord, h]

theorem decodeWord_of_classE (h : op1 w = 0xE) : decodeWord w = .ok (decodeClassE w) := by simp [decodeWord, h]

theorem decodeWord_of_classF (h : op1 w = 0xF) : decodeWord w = decodeClassF w := by simp [decodeWord, h]

/-! The low byte selects the row of class 0 and of class E (R75, R77). -/

theorem decodeClass0_of_cls (h : op3 w = 0xE0) : decodeClass0 w = .cls (ignoredHigh w) := by simp [decodeClass0, h]

theorem decodeClass0_of_ret (h : op3 w = 0xEE) : decodeClass0 w = .ret (ignoredHigh w) := by simp [decodeClass0, h]

theorem decodeClass0_of_sys (hcls : op3 w ≠ 0xE0) (hret : op3 w ≠ 0xEE) : decodeClass0 w = .sys (fieldNNN w) := by
  simp [decodeClass0, hcls, hret]

theorem decodeClassE_of_skp (h : op3 w = 0x9E) : decodeClassE w = .skp (fieldX w) := by simp [decodeClassE, h]

theorem decodeClassE_of_sknp (h : op3 w ≠ 0x9E) : decodeClassE w = .sknp (fieldX w) (fieldKK w) := by
  simp [decodeClassE, h]

/-! Which words SYS and SKNP leave to the rows with priority over them. -/

theorem sysFieldOk_iff (nnn : Addr12) :
    sysFieldOk nnn = true ↔ nnn.toNat % 256 ≠ 0xE0 ∧ nnn.toNat % 256 ≠ 0xEE := by
  simp [sysFieldOk]

theorem sknpFieldOk_iff (kk : Byte) : sknpFieldOk kk = true ↔ kk.toNat ≠ 0x9E := by
  simp [sknpFieldOk, ← BitVec.toNat_inj]

/-- A well-formed instruction is read back from its word, class by class. -/
theorem decodeWord_encode (h : i.wf = true) : decodeWord (encode i) = .ok i := by
  cases i with
  | sys nnn =>
    obtain ⟨hcls, hret⟩ := (sysFieldOk_iff nnn).1 h
    have h3 := op3_encodeNNN (c := 0) (by decide) nnn
    rw [encode, decodeWord_of_class0 (op1_encodeNNN (by decide) nnn), decodeClass0_of_sys (by rwa [h3]) (by rwa [h3]),
      fieldNNN_encodeNNN (by decide)]
  | cls n =>
    rw [encode, decodeWord_of_class0 (op1_encodeClass0 (by decide) n),
      decodeClass0_of_cls (op3_encodeClass0 (by decide) n), ignoredHigh_encodeClass0 (by decide)]
  | ret n =>
    rw [encode, decodeWord_of_class0 (op1_encodeClass0 (by decide) n),
      decodeClass0_of_ret (op3_encodeClass0 (by decide) n), ignoredHigh_encodeClass0 (by decide)]
  | jp nnn | call nnn | ldi nnn | jpv0 nnn =>
    simp [encode, decodeWord, op1_encodeNNN, fieldNNN_encodeNNN]
  | seKk x kk | sneKk x kk | ldKk x kk | addKk x kk | rnd x kk =>
    simp [encode, decodeWord, op1_encodeXKK _ kk.isLt, fieldX_encodeXKK _ kk.isLt, fieldKK_encodeXKK]
  | seVy x y n | sneVy x y n =>
    simp [encode, decodeWord, op1_encodeXYN _ n.isLt, fieldX_encodeXYN _ n.isLt, fieldY_encodeXYN _ n.isLt,
      ignoredLow_encodeXYN]
  | ldVy x y | or x y | and x y | xor x y | add x y | sub x y | shr x y | subn x y | shl x y =>
    rw [encode, decodeWord_of_class8 (op1_encodeXYN (by decide) (by decide) x y)]
    simp [decodeClass8, op2_encodeXYN, fieldX_encodeXYN, fieldY_encodeXYN]
  | drw x y n =>
    simp [encode, decodeWord, op1_encodeXYN _ n.isLt, fieldX_encodeXYN _ n.isLt, fieldY_encodeXYN _ n.isLt,
      fieldN_encodeXYN]
  | skp x =>
    rw [encode, decodeWord_of_classE (op1_encodeXKK (by decide) (by decide) x),
      decodeClassE_of_skp (op3_encodeXKK (by decide) (by decide) x), fieldX_encodeXKK (by decide) (by decide)]
  | sknp x kk =>
    have h3 := op3_encodeXKK (c := 0xE) (by decide) kk.isLt x
    rw [encode, decodeWord_of_classE (op1_encodeXKK (by decide) kk.isLt x),
      decodeClassE_of_sknp (by rw [h3]; exact (sknpFieldOk_iff kk).1 h), fieldX_encodeXKK (by decide) kk.isLt,
      fieldKK_encodeXKK (by decide)]
  | ldvdt x | ldk x | lddt x | ldst x | addi x | ldf x | ldbcd x | ldrw x | ldrs x =>
    rw [encode, decodeWord_of_classF (op1_encodeXKK (by decide) (by decide) x)]
    simp [decodeClassF, op3_encodeXKK, fieldX_encodeXKK]

/-! What a word decodes to is well-formed: the priority rows of classes 0 and E are tested first. -/

/-- The low byte of `NNN` is `Op3`, the byte that class 0 is decoded on. -/
theorem fieldNNN_toNat_mod_eq_op3 (w : Word) : (fieldNNN w).toNat % 256 = op3 w := by
  rw [fieldNNN_toNat, op3_eq]
  omega

theorem decodeClass0_wf (w : Word) : (decodeClass0 w).wf = true := by
  unfold decodeClass0
  split
  · rfl
  · split
    · rfl
    · rw [Instr.wf, sysFieldOk_iff, fieldNNN_toNat_mod_eq_op3]
      exact ⟨‹_›, ‹_›⟩

theorem decodeClassE_wf (w : Word) : (decodeClassE w).wf = true := by
  unfold decodeClassE
  split
  · rfl
  · rwa [Instr.wf, sknpFieldOk_iff, fieldKK_toNat_eq_op3]

theorem wf_of_decodeClass8 (h : decodeClass8 w = .ok i) : i.wf = true := by
  unfold decodeClass8 at h
  split at h <;> cases h <;> rfl

theorem wf_of_decodeClassF (h : decodeClassF w = .ok i) : i.wf = true := by
  unfold decodeClassF at h
  split at h <;> cases h <;> rfl

theorem wf_of_decodeWord (h : decodeWord w = .ok i) : i.wf = true := by
  unfold decodeWord at h
  split at h
  case h_1 => cases h; exact decodeClass0_wf w
  case h_9 => exact wf_of_decodeClass8 h
  case h_15 => cases h; exact decodeClassE_wf w
  case h_16 => exact wf_of_decodeClassF h
  all_goals cases h; rfl

end Sys2Proof

namespace Sys2Proof.Machine

/-- RET with return addresses pending: the ignored bits occur only in the fault record of an empty stack (R112). -/
theorem exec_ret_of_live {s : State} {k : Fin 16} (h : s.sp.toNat = k.val + 1) (n : Nibble) :
    exec (.ret n) s = .next ((s.setSp (s.sp - 1)).setPc s.stack[k.val]) := by
  simp only [exec, execRet, State.popIndex_of_live h]

end Sys2Proof.Machine

namespace Sys2Proof.Proofs

open Sys2Proof Sys2Proof.Machine

/-- Settles O1, by cases on the instruction: its word's fields are its operands. -/
theorem decodeOfEncodeIsIdentity : Obligations.DecodeOfEncodeIsIdentity := by
  intro i h
  exact decodeWord_encode h

/-- Settles O2: the fields put together are the word, and SYS and SKNP are tested last in their classes. -/
theorem encodeOfDecodeIsIdentity : Obligations.EncodeOfDecodeIsIdentity := by
  intro w i h
  exact ⟨encode_of_decodeWord h, wf_of_decodeWord h⟩

/-- Settles O6: the decoder keeps the unexamined bits in the term, and the handlers do not read them. -/
theorem dontCareBitsHaveNoEffect : Obligations.DontCareBitsHaveNoEffect := by
  refine ⟨fun w h1 h3 => ?cls, fun w h1 h3 => ?ret, fun w h1 hcls hret => ?sys, fun w h1 => ?seVy,
    fun w h1 => ?sneVy⟩
  case cls => exact ⟨_, by rw [decodeWord_of_class0 h1, decodeClass0_of_cls h3], fun _ _ => rfl⟩
  case ret =>
    refine ⟨_, by rw [decodeWord_of_class0 h1, decodeClass0_of_ret h3], fun m s hpos hle => ?_⟩
    have hk : s.sp.toNat = (⟨s.sp.toNat - 1, by omega⟩ : Fin 16).val + 1 := (Nat.sub_add_cancel hpos).symm
    rw [exec_ret_of_live hk, exec_ret_of_live hk]
  case sys => exact ⟨by rw [decodeWord_of_class0 h1, decodeClass0_of_sys hcls hret], fun _ => rfl⟩
  case seVy => exact ⟨_, decodeWord_of_class5 h1, fun _ _ => rfl⟩
  case sneVy => exact ⟨_, decodeWord_of_class9 h1, fun _ _ => rfl⟩

/-- Settles O3: every field is a quotient and remainder of the word's number. -/
theorem fieldsPartitionTheWord : Obligations.FieldsPartitionTheWord := by
  intro w
  have := w.isLt
  simp only [op1_eq, op2_eq, op3_eq, fieldX_val, fieldY_val, fieldN_val, fieldKK_toNat, fieldNNN_toNat,
    true_and]
  omega

end Sys2Proof.Proofs
end

section
/-! `ResolveIndex`: the dispatch index of what the decoder answers, class by class (30_encoding.md R73 to R79). -/

namespace Sys2Proof

variable {w : Word} {e : DecodeError}

/-- The dispatch index of the decoder's answer, none where it is an error. -/
def decodedIndex : Except DecodeError Instr → Option Nat
  | .ok i    => some (dispatchIndex i)
  | .error _ => none

@[simp] theorem decodedIndex_ok (i : Instr) : decodedIndex (.ok i) = some (dispatchIndex i) := rfl

@[simp] theorem decodedIndex_error (e : DecodeError) : decodedIndex (.error e) = none := rfl

theorem dispatchIndex_decodeClass0 (w : Word) :
    dispatchIndex (decodeClass0 w) = if op3 w = 0xE0 then 1 else if op3 w = 0xEE then 2 else 0 := by
  unfold decodeClass0
  split_ifs <;> rfl

theorem dispatchIndex_decodeClassE (w : Word) :
    dispatchIndex (decodeClassE w) = if op3 w = 0x9E then 24 else 25 := by
  unfold decodeClassE
  split_ifs <;> rfl

theorem decodedIndex_decodeClass8 (w : Word) :
    decodedIndex (decodeClass8 w) =
      if op2 w ≤ 0x7 then some (op2 w + 10) else if op2 w = 0xE then some 18 else none := by
  unfold decodeClass8
  split
  case h_10 =>
    simp only [imp_false] at *
    have hgt : ¬ op2 w ≤ 0x7 := by omega
    have hne : op2 w ≠ 0xE := by assumption
    rw [if_neg hgt, if_neg hne, decodedIndex_error]
  all_goals simp [*, dispatchIndex]

/-- The secondary bytes of class F with their dispatch indices (R78). -/
def classFRows : List (Nat × Nat) :=
  [(0x07, 26), (0x0A, 27), (0x15, 28), (0x18, 29), (0x1E, 30), (0x29, 31), (0x33, 32), (0x55, 33), (0x65, 34)]

theorem decodedIndex_decodeClassF (w : Word) :
    decodedIndex (decodeClassF w) = (classFRows.find? fun row => row.1 == op3 w).map (·.2) := by
  unfold decodeClassF
  split
  case h_10 =>
    simp only [imp_false] at *
    have hnone : classFRows.find? (fun row => row.1 == op3 w) = none := by
      simp [classFRows]
      omega
    rw [hnone, decodedIndex_error, Option.map_none]
  all_goals simp [*, classFRows, dispatchIndex]

/-- Where class 8 or class F raises, the error names the word. -/
theorem decodeClass8_error (h : decodeClass8 w = .error e) : e = .unrecognizedInstruction w := by
  unfold decodeClass8 at h
  split at h <;> cases h
  rfl

theorem decodeClassF_error (h : decodeClassF w = .error e) : e = .unrecognizedInstruction w := by
  unfold decodeClassF at h
  split at h <;> cases h
  rfl

/-- The decoder's only error is the unrecognised instruction, which names the word (R181). -/
theorem decodeWord_error (h : decodeWord w = .error e) : e = .unrecognizedInstruction w := by
  unfold decodeWord at h
  split at h
  case h_9 => exact decodeClass8_error h
  case h_16 => exact decodeClassF_error h
  all_goals cases h

/-- `ResolveIndex` of R73. -/
def resolveIndex (w : Word) : Option Nat :=
  if op1 w = 0x0 then (if op3 w = 0xE0 then some 1 else if op3 w = 0xEE then some 2 else some 0)
  else if op1 w ≤ 0x7 then some (op1 w + 2)
  else if op1 w = 0x8 then
    (if op2 w ≤ 0x7 then some (op2 w + 10) else if op2 w = 0xE then some 18 else none)
  else if op1 w ≤ 0xD then some (op1 w + 10)
  else if op1 w = 0xE then (if op3 w = 0x9E then some 24 else some 25)
  else (classFRows.find? fun row => row.1 == op3 w).map (·.2)

/-- The decoder answers with the index of `ResolveIndex`, one class after another. -/
theorem decodedIndex_decodeWord (w : Word) : decodedIndex (decodeWord w) = resolveIndex w := by
  unfold decodeWord resolveIndex
  split
  case h_1 hc => simp [hc, dispatchIndex_decodeClass0, apply_ite some]
  case h_9 hc => simp [hc, decodedIndex_decodeClass8]
  case h_15 hc => simp [hc, dispatchIndex_decodeClassE, apply_ite some]
  case h_16 =>
    simp only [imp_false] at *
    have hF : 0xE < op1 w := by omega
    rw [decodedIndex_decodeClassF, if_neg (by omega), if_neg (by omega), if_neg (by omega), if_neg (by omega),
      if_neg (by omega)]
  all_goals simp [*, dispatchIndex]

end Sys2Proof

namespace Sys2Proof.Proofs

open Sys2Proof

/-- Settles O4: `ResolveIndex` class by class, and the errors of classes 8 and F. -/
theorem decoderIsResolveIndex : Obligations.DecoderIsResolveIndex := by
  intro w
  exact ⟨decodedIndex_decodeWord w, fun _ h => decodeWord_error h⟩

end Sys2Proof.Proofs
end

section
/-! The cycle taken apart (40_dispatch_cycle.md R90, R91, R99): what a fetch answers, that every handler and every step
answers a next state, and the steps of an LDK that waits. -/

namespace Sys2Proof.Machine

variable {i : Instr} {s t : State} {w : Word}

/-! The fetch. -/

theorem memIndex_add_one (ea : Word) : memIndex (ea + 1) = (ea.toNat + 1) % 4096 := memIndex_effectiveAddress ea 1

/-- A fetch that passes its range check gives the big-endian word of the bytes at `PC` (R55). -/
theorem fetchWord_of_inRange (h : firstOutOfRange s.params.addrPolicy s.pc 2 = none) :
    ∃ w : Word, fetchWord s = .ok w ∧
      w.toNat = (s.mem.read (s.pc.toNat % 4096)).toNat * 256 + (s.mem.read ((s.pc.toNat + 1) % 4096)).toNat := by
  refine ⟨_, by rw [fetchWord, h], ?_⟩
  rw [joinBytes_toNat, loadByte, loadByte, memIndex_add_one]
  rfl

theorem fetchWord_of_outOfRange {ea : Word} (h : firstOutOfRange s.params.addrPolicy s.pc 2 = some ea) :
    fetchWord s = .error ea := by rw [fetchWord, h]

/-- Under `fault`, a fetch that would leave memory fails at its first address outside (R53). -/
theorem fetchWord_of_fault_policy (hp : s.params.addrPolicy = .fault) (h : 0x0FFF ≤ s.pc.toNat) :
    fetchWord s = .error (if s.pc.toNat < 4096 then 0x1000 else s.pc) :=
  fetchWord_of_outOfRange (hp ▸ firstOutOfRange_of_gt 2 s.pc (by decide) (by simp only [memSize]; omega))

/-! Every handler and every step answers a next state. -/

theorem exec_answers_next (i : Instr) (s : State) : ∃ t, exec i s = .next t := by
  cases i <;> exact ⟨_, rfl⟩

theorem step_of_halted (h : s.halt.isSome = true) : step s = .next s := by simp [step, runCycle, h]

theorem step_of_fetch_error {ea : Word} (hh : s.halt = none) (hp : s.samplePause.paused = false)
    (hf : fetchWord s = .error ea) :
    step s = .next (s.samplePause.enterCycle.raise .addressFault none (some ea)) := by
  simp [step, runCycle, executeCycle, hh, hp, State.begun_fetchWord hp, hf]

theorem step_of_decode_error {e : DecodeError} (hh : s.halt = none) (hp : s.samplePause.paused = false)
    (hf : fetchWord s = .ok w) (hd : decodeWord w = .error e) :
    step s = .next (s.samplePause.enterCycle.raise .unrecognizedInstruction (some w) none) := by
  simp [step, runCycle, executeCycle, hh, hp, State.begun_fetchWord hp, hf, hd]

/-- Halted, paused, out of range at the fetch, unrecognised, or executed: in each case the step has an answer. -/
theorem step_answers_next (s : State) : ∃ t, step s = .next t := by
  cases hh : s.halt with
  | some r => exact ⟨_, step_of_halted (by simp [hh])⟩
  | none =>
    cases hp : s.samplePause.paused with
    | true => exact ⟨_, step_of_paused hh hp⟩
    | false =>
      cases hf : fetchWord s with
      | error ea => exact ⟨_, step_of_fetch_error hh hp hf⟩
      | ok w =>
        cases hd : decodeWord w with
        | error e => exact ⟨_, step_of_decode_error hh hp hf hd⟩
        | ok i =>
          obtain ⟨u, hx⟩ := exec_answers_next i s.samplePause.enterCycle
          exact ⟨_, step_of_decoded hh hp hf hd hx⟩

/-- No handler uses up the environment's answers: the end of the cycle sees those its handler saw. -/
theorem exec_keeps_input (h : exec i s = .next t) : t.input = s.input := by
  cases exec_effect h <;> rfl

/-- A new cycle runs its handler in `State.cycleStart`, and then ends. -/
theorem step_of_cycleStart (hh : s.halt = none) (hw : s.waiting = false) (hp : s.input.pause = false)
    (hf : fetchWord s = .ok w) (hd : decodeWord w = .ok i) (hx : exec i s.cycleStart = .next t) :
    step s = .next t.endCycle :=
  step_of_decoded hh ((State.samplePause_paused_of_not_waiting hw).trans hp) hf hd
    (State.begun_eq_cycleStart hw hp ▸ hx)

/-! LDK's wait. -/

theorem exec_ldk_of_no_key (hk : s.input.keyEvent = none) (x : Reg) :
    exec (.ldk x) s = .next (s.setWaiting true) := by
  simp only [exec, execLdk, hk]

/-- A step of an LDK that goes on waiting uses up the environment's answers (R99). -/
theorem step_of_wait {x : Reg} {f : Inputs} {fs : List Inputs} (hh : s.halt = none) (hw : s.waiting = true)
    (hp : s.paused = false) (hf : fetchWord s = .ok w) (hd : decodeWord w = .ok (.ldk x)) (hin : s.inputs = f :: fs)
    (hk : f.keyEvent = none) :
    step s = .next { s with inputs := fs, inputIndex := s.inputIndex + 1 } := by
  have hbegun : s.samplePause.enterCycle = s.setWaiting false := by
    rw [State.begun_eq s (State.samplePause_paused_of_waiting hw)]
    simp [State.setWaiting, hw, hp]
  have hkey : (s.setWaiting false).input.keyEvent = none := by
    simp only [State.input, State.setWaiting_inputs, hin, hk]
  have hx := exec_ldk_of_no_key hkey x
  rw [← hbegun] at hx
  rw [step_of_decoded hh (State.samplePause_paused_of_waiting hw) hf hd hx, hbegun,
    State.endCycle_of_waiting (s := (s.setWaiting false).setWaiting true) hh rfl]
  simp [State.takeInput, State.setWaiting, hin, hw]

/-- A run of waiting steps: induction over the answers it uses up. -/
theorem core_run_of_wait {x : Reg} {fs rest : List Inputs} (hh : s.halt = none) (hw : s.waiting = true)
    (hp : s.paused = false) (hf : fetchWord s = .ok w) (hd : decodeWord w = .ok (.ldk x)) (hin : s.inputs = fs ++ rest)
    (hk : ∀ f ∈ fs, f.keyEvent = none) :
    core.run fs.length s = .next { s with inputs := rest, inputIndex := s.inputIndex + fs.length } := by
  induction fs generalizing s with
  | nil =>
    cases s
    cases hin
    rfl
  | cons f fs ih =>
    have hstep := step_of_wait hh hw hp hf hd hin (hk f List.mem_cons_self)
    have hrun := ih (s := { s with inputs := fs ++ rest, inputIndex := s.inputIndex + 1 }) hh hw hp
      ((fetchWord_congr rfl rfl rfl).trans hf) rfl fun g hg => hk g (List.mem_cons_of_mem f hg)
    calc core.run (fs.length + 1) s
      _ = _ := core_run_succ hstep _
      _ = _ := hrun
      _ = _ := by simp [Nat.add_assoc, Nat.add_comm 1]

end Sys2Proof.Machine

namespace Sys2Proof.Proofs

open Sys2Proof Sys2Proof.Machine

/-- Settles O11: every handler has an answer, and so has a step in each case of the cycle. -/
theorem everyStepAnswersANextState : Obligations.EveryStepAnswersANextState :=
  ⟨step_answers_next, exec_answers_next⟩

/-- Settles O16: the range check of the two addresses, and the bytes behind them. -/
theorem fetchIsBigEndianAndRangeChecked : Obligations.FetchIsBigEndianAndRangeChecked := by
  intro s
  refine ⟨fun hp hlt => ?inside, fun hp heq => ?edge, fun hp hgt => ?outside, fun hp => ?wrap12⟩
  case inside =>
    have hr : firstOutOfRange s.params.addrPolicy s.pc 2 = none :=
      hp ▸ firstOutOfRange_of_le 2 s.pc (by simp only [memSize]; omega)
    have := fetchWord_of_inRange hr
    rwa [Nat.mod_eq_of_lt (by omega), Nat.mod_eq_of_lt (by omega)] at this
  case edge => rw [fetchWord_of_fault_policy hp heq.ge, if_pos (by omega)]
  case outside => rw [fetchWord_of_fault_policy hp hgt.le, if_neg (by omega)]
  case wrap12 => exact fetchWord_of_inRange (hp ▸ firstOutOfRange_wrap12 2 s.pc)

/-- Settles O55, by induction over the answers used up. -/
theorem ldkWaitChangesNothing : Obligations.LdkWaitChangesNothing := by
  intro s w x fs rest hh hw hp hf hd hin hk
  exact core_run_of_wait hh hw hp hf hd hin hk

/-- Settles O12: the handler runs in the state of the new cycle, and the end of the cycle has its three cases. -/
theorem stepRunsTheDecodedInstruction : Obligations.StepRunsTheDecodedInstruction := by
  intro s w i hh hw hp hf hd
  obtain ⟨t, hx⟩ := exec_answers_next i s.cycleStart
  have hstep := step_of_cycleStart hh hw hp hf hd hx
  have hin : t.input = s.input := (exec_keeps_input hx).trans rfl
  refine ⟨t, hx, fun hhalt => ?_, fun hrun hwait => ?_, fun hrun hdone => ?_⟩
  · rw [hstep, State.endCycle_of_halted hhalt]
  · rw [hstep, State.endCycle_of_waiting hrun hwait]
  · rw [hstep, State.endCycle_of_complete hrun hdone, State.finishCycle, hin]

end Sys2Proof.Proofs
end

section
/-! Where the handlers leave `PC` (40_dispatch_cycle.md R94, R95). -/

namespace Sys2Proof.Machine

variable {i : Instr} {s t : State}

/-- A skip passes over one instruction or over none (R95). -/
theorem State.skipIf_pc_cases (s : State) (c : Bool) :
    (s.skipIf c).pc = s.pc + 2 ∨ (s.skipIf c).pc = s.pc + 4 := by
  cases c
  · exact .inl rfl
  · exact .inr rfl

/-- A checked access that raised no fault went through. -/
theorem State.checked_of_halt_none {n : Nat} {word : Word} {access : State → State}
    (h : (s.checked n word access).halt = none) : s.checked n word access = access s := by
  rcases State.checked_cases s n word access with hc | ⟨ea, -, hc⟩
  · exact hc
  · simp [hc] at h

/-- A handler that completes advances, and only a skip advances by two instructions; JP, CALL, RET and JPV0 apart. -/
theorem exec_pc_of_completed (h : exec i s = .next t) (hh : t.halt = none) (hw : t.waiting = false)
    (hi : dispatchIndex i ∉ [2, 3, 4, 21]) :
    t.pc = s.pc + 2 ∨ (dispatchIndex i ∈ [5, 6, 7, 19, 24, 25] ∧ t.pc = s.pc + 4) := by
  cases i with
  | jp | call | ret | jpv0 => simp [dispatchIndex] at hi
  | seKk | sneKk | seVy | sneVy | skp | sknp =>
    cases h
    exact (State.skipIf_pc_cases s _).imp_right fun h4 => ⟨by simp [dispatchIndex], h4⟩
  | drw | ldbcd | ldrw | ldrs =>
    cases h
    exact .inl (by rw [State.checked_of_halt_none hh, State.advance_pc]; rfl)
  | ldk x =>
    cases h
    split at hw
    · exact .inl rfl
    · cases hw
  | _ => cases h; exact .inl rfl

/-! JP, JPV0, CALL and RET. -/

theorem zextAddr_toNat (nnn : Addr12) : (zextAddr nnn).toNat = nnn.toNat :=
  BitVec.toNat_setWidth_of_le (by decide)

theorem zextByte_toNat (b : Byte) : (zextByte b).toNat = b.toNat :=
  BitVec.toNat_setWidth_of_le (by decide)

/-- The sum of JPV0 is at most `0x10FE` and never wraps (R119). -/
theorem zextAddr_add_zextByte_toNat (nnn : Addr12) (b : Byte) :
    (zextAddr nnn + zextByte b).toNat = nnn.toNat + b.toNat := by
  rw [BitVec.toNat_add, zextAddr_toNat, zextByte_toNat]
  omega

theorem exec_call_of_room (h : s.sp.toNat < 16) (nnn : Addr12) :
    exec (.call nnn) s = .next ((s.push (s.pc + 2) h).setPc (zextAddr nnn)) := by
  simp only [exec, execCall, h, dif_pos]

/-- CALL on a full stack under `permissive` (R182). -/
theorem exec_call_of_full (h : 16 ≤ s.sp.toNat) (hp : s.params.stackPolicy = .permissive) (nnn : Addr12) :
    exec (.call nnn) s = .next s.advance := by
  simp only [exec, execCall, h.not_gt, dif_neg, not_false_iff, State.stackViolation_permissive hp]

/-- RET on an empty stack under `permissive` (R183). -/
theorem exec_ret_of_empty (h : s.sp.toNat = 0) (hp : s.params.stackPolicy = .permissive) (n : Nibble) :
    exec (.ret n) s = .next s.advance := by
  simp only [exec, execRet, State.popIndex_of_empty h, State.stackViolation_permissive hp]

end Sys2Proof.Machine

namespace Sys2Proof.Proofs

open Sys2Proof Sys2Proof.Machine

/-- Settles O25: the handlers that advance, by cases on the instruction, and the four that set `PC`. -/
theorem programCounterUpdate : Obligations.ProgramCounterUpdate := by
  refine ⟨fun i s t _ h hh hw hi => exec_pc_of_completed h hh hw hi, fun nnn _ s t h => ?jp, fun nnn s t h => ?jpv0,
    fun nnn s t h => ⟨fun hsp => ?call, fun hsp hp => ?callFull⟩,
    fun n s t h => ⟨fun k hk => ?ret, fun hsp hp => ?retEmpty⟩⟩
  case jp =>
    cases h
    exact zextAddr_toNat nnn
  case jpv0 =>
    cases h
    exact zextAddr_add_zextByte_toNat nnn (s.readV 0)
  case call =>
    rw [exec_call_of_room hsp] at h
    cases h
    exact zextAddr_toNat nnn
  case callFull =>
    rw [exec_call_of_full hsp.ge hp] at h
    cases h
    rfl
  case ret =>
    rw [exec_ret_of_live hk] at h
    cases h
    rfl
  case retEmpty =>
    rw [exec_ret_of_empty hsp hp] at h
    cases h
    rfl

end Sys2Proof.Proofs
end

section
/-! SYS, JP and RET (41_flow.md R111 to R113, 60_exceptions.md R183). -/

namespace Sys2Proof.Machine

variable {i : Instr} {s : State} {w : Nat}

/-- For a well-formed instruction, its word decides its row of R74: that word is read back as the instruction. -/
theorem Encoded.of_wf (h : i.wf = true) (hw : encode i = BitVec.ofNat 16 w) : Encoded i w (dispatchIndex i) where
  decoded := hw ▸ decodeWord_encode h
  encoded := hw
  indexed := rfl

theorem encoded_sys {nnn : Addr12} (h : sysFieldOk nnn = true) : Encoded (.sys nnn) nnn.toNat 0 :=
  .of_wf h (congrArg (BitVec.ofNat 16) (by omega))

theorem encoded_jp (nnn : Addr12) : Encoded (.jp nnn) (0x1000 + nnn.toNat) 3 := .of_wf rfl rfl

theorem encoded_ret (n : Nibble) : Encoded (.ret n) (n.toNat * 256 + 0xEE) 2 := .of_wf rfl rfl

theorem zextAddr_eq_ofNat (nnn : Addr12) : zextAddr nnn = BitVec.ofNat 16 nnn.toNat :=
  (BitVec.ofNat_toNat 16 nnn).symm

/-- `SP` after a pop is the index of the entry it uncovers (10_state.md R28). -/
theorem State.sp_sub_one_of_live {k : Fin 16} (h : s.sp.toNat = k.val + 1) : s.sp - 1 = BitVec.ofNat 8 k.val := by
  bv_omega

/-- RET on an empty stack under `strict` (R183). -/
theorem exec_ret_of_empty_strict (h : s.sp.toNat = 0) (hp : s.params.stackPolicy = .strict) (n : Nibble) :
    exec (.ret n) s = .next (s.raise .stackUnderflow (some (encode (.ret n))) none) := by
  simp only [exec, execRet, State.popIndex_of_empty h, State.stackViolation_strict hp]

end Sys2Proof.Machine

namespace Sys2Proof.Proofs

open Sys2Proof Sys2Proof.Machine

/-- Settles O26: SYS is well-formed unless it is CLS or RET, and its handler only advances. -/
theorem sysOnlyAdvances : Obligations.SysOnlyAdvances := by
  intro nnn s
  exact ⟨encoded_sys, rfl⟩

/-- Settles O27: the handler puts the zero-extended target in `PC`. -/
theorem jpSetsPc : Obligations.JpSetsPc := by
  intro nnn s
  refine ⟨encoded_jp nnn, ?_⟩
  rw [← zextAddr_eq_ofNat]
  rfl

/-- Settles O29: a live entry is popped, and an empty stack is a violation, answered by the stack policy. -/
theorem retPopsOrUnderflows : Obligations.RetPopsOrUnderflows := by
  intro n s
  refine ⟨encoded_ret n, fun k hk => ?live, fun hsp hp => ?strict, fun hsp hp => ?permissive, rfl⟩
  case live =>
    rw [exec_ret_of_live hk, State.sp_sub_one_of_live hk]
    rfl
  case strict => exact exec_ret_of_empty_strict (congrArg BitVec.toNat hsp) hp n
  case permissive => exact exec_ret_of_empty (congrArg BitVec.toNat hsp) hp n

end Sys2Proof.Proofs
end

section
/-! LD_KK, ADD, SHR and SHL (42_alu.md R131, R137, R139, R141). -/

namespace Sys2Proof.Machine

variable {i : Instr} {s : State} {x y : Reg}

theorem encoded_ldKk (x : Reg) (kk : Byte) : Encoded (.ldKk x kk) (0x6000 + x.val * 256 + kk.toNat) 8 :=
  .of_wf rfl rfl

/-- An instruction `8xyn` has its word with the secondary nibble next to the class (R74). -/
theorem Encoded.of_class8 (n : Nat) (h : i.wf = true) (he : encode i = encodeXYN 0x8 x y n) :
    Encoded i (0x8000 + n + x.val * 256 + y.val * 16) (dispatchIndex i) :=
  .of_wf h (he.trans (congrArg (BitVec.ofNat 16) (by omega)))

theorem encoded_add (x y : Reg) : Encoded (.add x y) (0x8004 + x.val * 256 + y.val * 16) 14 :=
  .of_class8 0x4 rfl rfl

theorem encoded_shr (x y : Reg) : Encoded (.shr x y) (0x8006 + x.val * 256 + y.val * 16) 16 :=
  .of_class8 0x6 rfl rfl

theorem encoded_shl (x y : Reg) : Encoded (.shl x y) (0x800E + x.val * 256 + y.val * 16) 18 :=
  .of_class8 0xE rfl rfl

/-! The result and the flag of an instruction that writes both. -/

theorem State.readV_writeResult_self (h : x ≠ 15) (b : Byte) (c : Bool) : (s.writeResult x b c).readV x = b := by
  simp [State.readV_writeResult, h]

/-- The flag wins over the result, whatever `X` is (R130, decision D8). -/
theorem State.readV_writeResult_flag (x : Reg) (b : Byte) (c : Bool) :
    (s.writeResult x b c).readV 15 = flagByte c := by
  simp [State.readV_writeResult]

theorem flagByte_carryFlag (a b : Byte) :
    flagByte (carryFlag a b) = if 256 ≤ a.toNat + b.toNat then 1 else 0 := by
  simp [flagByte, carryFlag, Nat.lt_iff_add_one_le]

theorem flagByte_toNat (c : Bool) : (flagByte c).toNat = c.toNat := by cases c <;> rfl

/-- A bit reported in the flag, as a number: both shifts report one. -/
theorem flagByte_getLsbD_toNat (a : Byte) (n : Nat) : (flagByte (a.getLsbD n)).toNat = a.toNat / 2 ^ n % 2 := by
  rw [flagByte_toNat, BitVec.getLsbD, Nat.toNat_testBit]

theorem flagByte_shiftedOutRight_toNat (a : Byte) : (flagByte (shiftedOutRight a)).toNat = a.toNat % 2 := by
  rw [shiftedOutRight, flagByte_getLsbD_toNat, pow_zero, Nat.div_one]

/-- Above bit 7 a byte has nothing, so the quotient is the bit. -/
theorem flagByte_shiftedOutLeft_toNat (a : Byte) : (flagByte (shiftedOutLeft a)).toNat = a.toNat / 128 := by
  have := a.isLt
  rw [shiftedOutLeft, flagByte_getLsbD_toNat]
  omega

end Sys2Proof.Machine

namespace Sys2Proof.Proofs

open Sys2Proof Sys2Proof.Machine

/-- Settles O33: LD_KK is one register write and the advance, with that operation's frame. -/
theorem ldKkLoadsTheImmediate : Obligations.LdKkLoadsTheImmediate := by
  intro x kk s
  exact ⟨encoded_ldKk x kk, _, rfl, State.readV_setV_self x kk, rfl, .of_setV x kk⟩

/-- Settles O36: the sum is what the result's write leaves where `X` is not 15, and the carry is the flag. -/
theorem addSetsCarry : Obligations.AddSetsCarry := by
  intro x y s
  refine ⟨encoded_add x y, _, rfl, fun hx => ?sum, ?carry, rfl, .of_writeResult x _ _⟩
  case sum => rw [State.readV_writeResult_self hx, BitVec.toNat_add]
  case carry => rw [State.readV_writeResult_flag, flagByte_carryFlag]

/-- Settles O38: each shift writes the shifted value and then the bit it moved out; `Y` is only in the word. -/
theorem shiftsReportTheBitShiftedOut : Obligations.ShiftsReportTheBitShiftedOut := by
  intro x y s
  refine ⟨⟨encoded_shr x y, _, rfl, fun hx => ?half, ?bit0, rfl, .of_writeResult x _ _⟩,
    ⟨encoded_shl x y, _, rfl, fun hx => ?double, ?bit7, rfl, .of_writeResult x _ _⟩⟩
  case half => rw [State.readV_writeResult_self hx, BitVec.toNat_ushiftRight, Nat.shiftRight_one]
  case bit0 => rw [State.readV_writeResult_flag, flagByte_shiftedOutRight_toNat]
  case double => rw [State.readV_writeResult_self hx, BitVec.toNat_shiftLeft, Nat.shiftLeft_eq, pow_one]
  case bit7 => rw [State.readV_writeResult_flag, flagByte_shiftedOutLeft_toNat]

end Sys2Proof.Proofs
end

section
/-! The display: CLS, and the sprite blit as one exclusive-OR (44_display.md R160 to R165). -/

namespace Sys2Proof.Machine

/-- CLS is class 0 with byte `E0` (R74). -/
theorem encoded_cls (n : Nibble) : Encoded (.cls n) (n.toNat * 256 + 0xE0) 1 := .of_wf rfl rfl

/-! The loops of the blit count on from the origin and wrap; the statements ask how far a pixel is from the origin. -/

/-- How far the coordinate `v` is from the origin `o`, on an axis of `n` pixels that wraps. -/
def wrapOffset (n o v : Nat) : Nat := (v + n - o % n) % n

/-- The coordinate `k` places after the origin is the one whose offset is `k`. -/
theorem ofNat_add_eq_iff_wrapOffset {n k : Nat} [NeZero n] (hk : k < n) (o : Nat) (v : Fin n) :
    Fin.ofNat n (o + k) = v ↔ wrapOffset n o v = k := by
  have hsum : Fin.ofNat n (o + k) = Fin.ofNat n o + Fin.ofNat n k := by simp [Fin.ext_iff, Fin.val_add]
  have hdiff : (v - Fin.ofNat n o).val = wrapOffset n o v := by
    rw [Fin.val_sub, Fin.val_ofNat, Nat.add_comm, ← Nat.add_sub_assoc (Nat.mod_lt o (NeZero.pos n)).le, wrapOffset]
  rw [hsum, ← eq_sub_iff_add_eq', eq_comm, Fin.ext_iff, hdiff, Fin.val_ofNat, Nat.mod_eq_of_lt hk]

/-- The row of the origin is the last one seen from the row below it. -/
theorem wrapOffset_succ_of_zero {o v : Nat} (h : wrapOffset 32 o v = 0) : wrapOffset 32 (o + 1) v = 31 := by
  simp only [wrapOffset] at *
  omega

/-- Every other row is one nearer to the row below the origin. -/
theorem wrapOffset_succ_of_succ {o v k : Nat} (h : wrapOffset 32 o v = k + 1) : wrapOffset 32 (o + 1) v = k := by
  simp only [wrapOffset] at *
  omega

/-! A set of pixels flipped at once. -/

/-- `e` is `d` after every pixel of `m` was flipped once, with a collision where one of them was set. -/
structure Blit.Draws (m : Fin 64 → Fin 32 → Bool) (d e : Blit) : Prop where
  pixel : ∀ x y, e.fb.pixel x y = (d.fb.pixel x y ^^ m x y)
  collided : e.collided = true ↔ d.collided = true ∨ ∃ x y, d.fb.pixel x y = true ∧ m x y = true

section
variable {m m' u : Fin 64 → Fin 32 → Bool} {d e f : Blit}

theorem Blit.Draws.nothing (d : Blit) (hm : ∀ x y, m x y = false) : d.Draws m d where
  pixel := by simp [hm]
  collided := by simp [hm]

theorem Blit.Draws.of_bit (d : Blit) (x : Fin 64) (y : Fin 32) (b : Bool) :
    d.Draws (fun x' y' => b && decide (x = x' ∧ y = y')) (d.bit x y b) where
  pixel x' y' := d.bit_fb x x' y y' b
  collided := by
    rw [Blit.bit_collided]
    simp [and_comm, and_assoc]

/-- Two disjoint sets drawn one after the other are their union drawn at once: the second set finds its pixels as they
were before the first. -/
theorem Blit.Draws.trans (h : d.Draws m e) (h' : e.Draws m' f) (hdisj : ∀ x y, m' x y = true → m x y = false)
    (hu : ∀ x y, u x y = (m x y || m' x y)) : d.Draws u f where
  pixel x y := by
    rw [h'.pixel, h.pixel, hu]
    cases hm' : m' x y with
    | false => rw [Bool.xor_false, Bool.or_false]
    | true => rw [hdisj x y hm', Bool.xor_false, Bool.false_or]
  collided := by
    have hsecond (x y) : e.fb.pixel x y = true ∧ m' x y = true ↔ d.fb.pixel x y = true ∧ m' x y = true := by
      refine and_congr_left fun hm' => ?_
      rw [h.pixel, hdisj x y hm', Bool.xor_false]
    simp only [h'.collided, h.collided, hsecond, hu, Bool.or_eq_true, and_or_left, exists_or, or_assoc]

end

/-! One row of the sprite, and all of them. -/

/-- The pixels under the set bits in the first `k` columns of the byte `b` with origin (`ox`, `oy`). -/
def rowMask (ox oy : Nat) (b : Byte) (k : Nat) (x : Fin 64) (y : Fin 32) : Bool :=
  decide (wrapOffset 64 ox x < k ∧ wrapOffset 32 oy y = 0) && b.getLsbD (7 - wrapOffset 64 ox x)

/-- The pixels under the set bits of the sprite `bytes` with origin (`ox`, `oy`). -/
def spriteMask (ox oy : Nat) (bytes : List Byte) (x : Fin 64) (y : Fin 32) : Bool :=
  decide (wrapOffset 64 ox x < 8) && (bytes.getD (wrapOffset 32 oy y) 0).getLsbD (7 - wrapOffset 64 ox x)

theorem spriteCovers_eq_spriteMask (ox oy : Byte) (bytes : List Byte) :
    spriteCovers ox oy bytes = spriteMask ox.toNat oy.toNat bytes := rfl

variable {ox oy : Nat} {b : Byte} {bs : List Byte} {x : Fin 64} {y : Fin 32}

/-- The inner loop up to column `k`: each bit is drawn next to those before it. -/
theorem Blit.draws_columns (d : Blit) (ox oy : Nat) (b : Byte) {k : Nat} (hk : k ≤ 8) :
    d.Draws (rowMask ox oy b k) ((List.range k).foldl
      (fun d col => d.bit (Fin.ofNat 64 (ox + col)) (Fin.ofNat 32 oy) (b.getLsbD (7 - col))) d) := by
  induction k with
  | zero => exact .nothing d fun x y => by simp [rowMask]
  | succ k ih =>
    have hcol (x : Fin 64) : Fin.ofNat 64 (ox + k) = x ↔ wrapOffset 64 ox x = k :=
      ofNat_add_eq_iff_wrapOffset (by omega) ox x
    have hrow (y : Fin 32) : Fin.ofNat 32 oy = y ↔ wrapOffset 32 oy y = 0 :=
      ofNat_add_eq_iff_wrapOffset (k := 0) (by omega) oy y
    rw [List.range_succ, List.foldl_append]
    refine (ih (by omega)).trans (.of_bit _ _ _ _) (fun x y hbit => ?disjoint) fun x y => ?union
    case disjoint =>
      simp only [Bool.and_eq_true, decide_eq_true_eq, hcol] at hbit
      simp [rowMask, hbit]
    case union =>
      simp only [rowMask, hcol, hrow]
      rcases lt_trichotomy (wrapOffset 64 ox x) k with h | h | h
      · simp [h, h.ne, h.trans (Nat.lt_succ_self k)]
      · simp [h, Bool.and_comm]
      · simp [h.not_gt, h.ne', (Nat.succ_le_of_lt h).not_gt]

theorem Blit.draws_row (d : Blit) (ox oy : Nat) (b : Byte) : d.Draws (rowMask ox oy b 8) (d.row ox oy b) :=
  d.draws_columns ox oy b le_rfl

/-- At most 31 rows that begin below the origin do not come round to it. -/
theorem spriteMask_succ_of_origin_row (hbs : bs.length < 32) (h : wrapOffset 32 oy y = 0) :
    spriteMask ox (oy + 1) bs x y = false := by
  rw [spriteMask, wrapOffset_succ_of_zero h, List.getD_eq_default _ _ (by omega)]
  simp

theorem rowMask_of_later_row {k j : Nat} (h : wrapOffset 32 oy y = j + 1) : rowMask ox oy b k x y = false := by
  simp [rowMask, h]

/-- A sprite is its first row and, below it, the sprite of the others. -/
theorem spriteMask_cons (hbs : bs.length < 32) :
    spriteMask ox oy (b :: bs) x y = (rowMask ox oy b 8 x y || spriteMask ox (oy + 1) bs x y) := by
  cases h : wrapOffset 32 oy y with
  | zero =>
    rw [spriteMask_succ_of_origin_row hbs h, Bool.or_false]
    simp [spriteMask, rowMask, h]
  | succ k => simp [rowMask_of_later_row h, spriteMask, wrapOffset_succ_of_succ h, h]

theorem rowMask_disjoint_rest (hbs : bs.length < 32) (h : spriteMask ox (oy + 1) bs x y = true) :
    rowMask ox oy b 8 x y = false := by
  cases hy : wrapOffset 32 oy y with
  | zero => simp [spriteMask_succ_of_origin_row hbs hy] at h
  | succ k => exact rowMask_of_later_row hy

/-- The outer loop: as many rows as the screen has, or fewer, do not overlap. -/
theorem Blit.draws_rows (d : Blit) (ox oy : Nat) {bytes : List Byte} (h : bytes.length ≤ 32) :
    d.Draws (spriteMask ox oy bytes) (d.rows ox oy bytes) := by
  induction bytes generalizing d oy with
  | nil => exact .nothing d fun x y => by simp [spriteMask]
  | cons b bs ih =>
    have hbs : bs.length < 32 := h
    exact (d.draws_row ox oy b).trans (ih _ _ hbs.le) (fun x y => rowMask_disjoint_rest hbs)
      fun x y => spriteMask_cons hbs

/-- `DrawSprite` flips the pixels its sprite covers (R162), and collides where one of them was set (R163). -/
theorem drawSprite_draws (f : FrameBuffer) (ox oy : Byte) {bytes : List Byte} (h : bytes.length ≤ 32) :
    Blit.Draws (spriteCovers ox oy bytes) ⟨f, false⟩ (drawSprite f ox oy bytes) := by
  rw [spriteCovers_eq_spriteMask]
  exact Blit.draws_rows _ _ _ h

theorem drawSprite_pixel (f : FrameBuffer) (ox oy : Byte) {bytes : List Byte} (h : bytes.length ≤ 32) (x : Fin 64)
    (y : Fin 32) : (drawSprite f ox oy bytes).fb.pixel x y = (f.pixel x y ^^ spriteCovers ox oy bytes x y) :=
  (drawSprite_draws f ox oy h).pixel x y

theorem drawSprite_collided_iff (f : FrameBuffer) (ox oy : Byte) {bytes : List Byte} (h : bytes.length ≤ 32) :
    (drawSprite f ox oy bytes).collided = true ↔
      ∃ x y, f.pixel x y = true ∧ spriteCovers ox oy bytes x y = true := by
  simpa using (drawSprite_draws f ox oy h).collided

end Sys2Proof.Machine

namespace Sys2Proof.Proofs

open Sys2Proof Sys2Proof.Machine

/-- Settles O50: induction over the two loops of the blit, which flip disjoint sets of pixels one after the other. -/
theorem drawSpriteIsExclusiveOr : Obligations.DrawSpriteIsExclusiveOr := by
  intro f ox oy bytes h
  have h32 : bytes.length ≤ 32 := by omega
  exact ⟨drawSprite_pixel f ox oy h32, drawSprite_collided_iff f ox oy h32⟩

/-- Settles O51: exclusive-OR with the same sprite twice is the identity, and a covered pixel is set after the first
draw where it was unset before. -/
theorem drawingTwiceRestoresTheScreen : Obligations.DrawingTwiceRestoresTheScreen := by
  intro f ox oy bytes h
  have h32 : bytes.length ≤ 32 := by omega
  refine ⟨FrameBuffer.ext_pixel fun x y => ?restored, ?collision⟩
  case restored =>
    rw [drawSprite_pixel _ ox oy h32, drawSprite_pixel f ox oy h32, Bool.xor_assoc, Bool.xor_self, Bool.xor_false]
  case collision =>
    rw [drawSprite_collided_iff _ ox oy h32]
    refine exists_congr fun x => exists_congr fun y => and_congr_left fun hcover => ?_
    rw [drawSprite_pixel f ox oy h32, hcover, Bool.xor_true, Bool.not_eq_true']

/-- Settles O48: the handler puts the cleared framebuffer in place and advances. -/
theorem clsClearsEveryPixel : Obligations.ClsClearsEveryPixel := by
  intro n s
  exact ⟨encoded_cls n, _, rfl, FrameBuffer.pixel_clear, rfl, rfl, fun _ => rfl⟩

end Sys2Proof.Proofs
end

section
/-! The timers: how far one update counts, and the total over a run of them (60_exceptions.md R190 to R196). -/

namespace Sys2Proof.Machine

variable {i : Instr} {s t : State}

/-! The count of one timer. -/

/-- A timer loaded with `v` and then updated with `total` ticks: its value is short by the full intervals among them,
and while it is Active the ticks left complete the interval under way. -/
structure Timer.HasCounted (interval v total : Nat) (t : Timer) : Prop where
  value     : t.value.toNat = v - total / interval
  remaining : t.value ≠ 0 → t.remaining = (interval : Int) - (total % interval : Nat)

theorem Timer.load_remaining {b : Byte} (hb : b ≠ 0) (interval : Nat) : (Timer.load interval b).remaining = interval :=
  if_neg hb

theorem Timer.HasCounted.load (interval : Nat) (b : Byte) : (Timer.load interval b).HasCounted interval b.toNat 0 where
  value := by simp
  remaining hb := (Timer.load_remaining (b := b) hb interval).trans (by simp)

/-- The next ticks leave the interval under way, or complete it. -/
theorem div_mod_add_of_le {interval e : Nat} (total : Nat) (hpos : 0 < interval) (he : e ≤ interval) :
    (total % interval + e < interval ∧ (total + e) / interval = total / interval ∧
      (total + e) % interval = total % interval + e) ∨
    (interval ≤ total % interval + e ∧ (total + e) / interval = total / interval + 1 ∧
      (total + e) % interval + interval = total % interval + e) := by
  have hmod := Nat.mod_lt total hpos
  have hdiv := Nat.div_add_mod total interval
  by_cases hlt : total % interval + e < interval
  · exact .inl ⟨hlt, (Nat.div_mod_unique hpos).2 ⟨by omega, hlt⟩⟩
  · obtain ⟨hq, hr⟩ := (Nat.div_mod_unique (a := total + e) (d := total / interval + 1)
      (c := total % interval + e - interval) hpos).2 ⟨by rw [Nat.mul_add_one]; omega, by omega⟩
    exact .inr ⟨by omega, hq, by omega⟩

/-- An update by at most one interval counts its ticks. -/
theorem Timer.HasCounted.update {interval v total e : Nat} {t : Timer} (h : t.HasCounted interval v total)
    (hpos : 0 < interval) (he : e ≤ interval) : (t.update interval e).1.HasCounted interval v (total + e) := by
  obtain ⟨hval, hrem⟩ := h
  have hcarry := div_mod_add_of_le total hpos he
  rcases Timer.update_cases t interval e with ⟨h0, hu⟩ | ⟨h0, hr, hu⟩ | ⟨h1, hr, hu⟩ | ⟨h0, h1, hr, hu⟩ <;>
    simp only [hu]
  case inl =>
    have : t.value.toNat = 0 := by simp [h0]
    exact ⟨by omega, fun hne => absurd h0 hne⟩
  case inr.inl =>
    have := hrem h0
    exact ⟨by simp only; omega, fun _ => by simp only; omega⟩
  case inr.inr.inl =>
    have : t.value.toNat = 1 := by simp [h1]
    have := hrem (by simp [h1])
    exact ⟨by simp only [BitVec.ofNat_eq_ofNat, BitVec.toNat_ofNat]; omega, fun hne => absurd rfl hne⟩
  case inr.inr.inr =>
    have := hrem h0
    have : (t.value - 1).toNat = t.value.toNat - 1 := by bv_omega
    exact ⟨by simp only; omega, fun _ => by simp only; omega⟩

/-- A run of updates by at most one interval each counts all their ticks: induction over the updates. -/
theorem Timer.HasCounted.foldl_update {interval v : Nat} (hpos : 0 < interval) {es : List Nat}
    (hes : ∀ e ∈ es, e ≤ interval) {total : Nat} {t : Timer} (h : t.HasCounted interval v total) :
    (es.foldl (fun t e => (t.update interval e).1) t).HasCounted interval v (total + es.sum) := by
  induction es generalizing t total with
  | nil => exact h
  | cons e es ih =>
    rw [List.sum_cons, ← Nat.add_assoc]
    exact ih (fun a ha => hes a (List.mem_cons_of_mem e ha)) (h.update hpos (hes e List.mem_cons_self))

/-! The value over one update, and over one step. -/

/-- However many ticks it is given, an update lets the value fall by at most one (R195). -/
theorem Timer.update_value_bounds (t : Timer) (interval e : Nat) :
    (t.update interval e).1.value.toNat ≤ t.value.toNat ∧
      t.value.toNat ≤ (t.update interval e).1.value.toNat + 1 := by
  rcases Timer.update_cases t interval e with ⟨-, hu⟩ | ⟨-, -, hu⟩ | ⟨h1, -, hu⟩ | ⟨h0, -, -, hu⟩ <;> rw [hu]
  case inl | inr.inl => simp
  case inr.inr.inl => simp [h1]
  case inr.inr.inr =>
    have : (t.value - 1).toNat + 1 = t.value.toNat := by bv_omega
    simp only
    omega

/-- Only LDDT's handler touches `DT`. -/
theorem exec_keeps_dt (hi : ∀ x, i ≠ .lddt x) (h : exec i s = .next t) : t.dt = s.dt := by
  cases exec_effect h with
  | armDt b hidx =>
    cases i with
    | lddt x => exact absurd rfl (hi x)
    | _ => simp [dispatchIndex] at hidx
  | _ => rfl

/-- At the end of a cycle `DT` has been left alone, or updated once. -/
theorem State.endCycle_dt_cases (s : State) :
    s.endCycle.dt = s.dt ∨ s.endCycle.dt = (s.dt.update s.params.interval s.input.elapsed).1 := by
  cases hh : s.halt with
  | some r => exact .inl (by rw [State.endCycle_of_halted (by simp [hh])])
  | none =>
    cases hw : s.waiting with
    | true => exact .inl (by rw [State.endCycle_of_waiting hh hw, State.takeInput_dt])
    | false => exact .inr (by rw [State.endCycle_of_complete hh hw, State.finishCycle_eq])

/-- A step that does not run LDDT leaves `DT` alone, or updates it once. -/
theorem step_dt_cases (h : step s = .next t)
    (hi : ∀ w x, fetchWord s = .ok w → decodeWord w ≠ .ok (.lddt x)) :
    t.dt = s.dt ∨ ∃ interval e, t.dt = (s.dt.update interval e).1 := by
  rcases step_cases h with ⟨-, rfl⟩ | ⟨-, -, rfl⟩ | ⟨-, hp, ea, -, rfl⟩ | ⟨-, hp, w, e, -, -, rfl⟩ |
    ⟨-, hp, w, i, u, hf, hd, hx, rfl⟩
  · exact .inl rfl
  · exact .inl rfl
  · exact .inl (by rw [State.begun_eq s hp]; rfl)
  · exact .inl (by rw [State.begun_eq s hp]; rfl)
  · have hu : u.dt = s.dt := by
      rw [exec_keeps_dt (fun x hix => hi w x hf (hix ▸ hd)) hx, State.begun_eq s hp]
    rcases State.endCycle_dt_cases u with he | he
    · exact .inl (he.trans hu)
    · exact .inr ⟨_, _, by rw [he, hu]⟩

/-! The two updates at the end of a cycle, written out. -/

/-- What a notice of the delay timer adds to the record of pulses, newest first (R193). -/
def Notice.dtEvents : Notice → List Event
  | .quiet          => []
  | .elapsed        => [.elapsed .dt]
  | .elapsedStopped => [.stopped .dt, .elapsed .dt]

/-- What a notice of the sound timer adds to the record of pulses, newest first (R193, R199). -/
def Notice.stEvents : Notice → List Event
  | .quiet          => []
  | .elapsed        => [.beepStart, .elapsed .st]
  | .elapsedStopped => [.beepEnd, .stopped .st, .beepStart, .elapsed .st]

/-- The level of `BEEP` after a notice of the sound timer (R197). -/
def Notice.beep (level : Bool) : Notice → Bool
  | .quiet          => level
  | .elapsed        => true
  | .elapsedStopped => false

theorem State.noteDt_eq (s : State) (n : Notice) : s.noteDt n = { s with trace := n.dtEvents ++ s.trace } := by
  cases n <;> rfl

theorem State.noteSt_eq (s : State) (n : Notice) :
    s.noteSt n = { s with beep := n.beep s.beep, trace := n.stEvents ++ s.trace } := by
  cases n <;> rfl

/-- `DT`'s update, then `ST`'s, with everything they touch. -/
theorem State.updateTimers_eq_notices (s : State) (e : Nat) :
    s.updateTimers e = { s with
      dt := (s.dt.update s.params.interval e).1
      st := (s.st.update s.params.interval e).1
      beep := (s.st.update s.params.interval e).2.beep s.beep
      trace := (s.st.update s.params.interval e).2.stEvents ++ (s.dt.update s.params.interval e).2.dtEvents ++
        s.trace } := by
  rw [State.updateTimers, State.updateDt, State.noteDt_eq, State.updateSt, State.noteSt_eq, List.append_assoc]
  rfl

end Sys2Proof.Machine

namespace Sys2Proof.Proofs

open Sys2Proof Sys2Proof.Machine

/-- Settles O58: the load has counted nothing, and every update counts its own ticks. -/
theorem timerCountsFullIntervals : Obligations.TimerCountsFullIntervals := by
  intro interval v es hpos hes
  simpa using ((Timer.HasCounted.load interval v).foldl_update hpos hes).value

/-- Settles O59: such a step updates the delay timer at most once. -/
theorem delayTimerFallsByAtMostOne : Obligations.DelayTimerFallsByAtMostOne := by
  intro s t h hi
  rcases step_dt_cases h hi with hdt | ⟨interval, e, hdt⟩ <;> rw [hdt]
  · exact ⟨le_rfl, Nat.le_succ _⟩
  · exact Timer.update_value_bounds s.dt interval e

/-- Settles O57: the four cases of an update. -/
theorem timerUpdateCases : Obligations.TimerUpdateCases := by
  intro t interval e
  refine ⟨fun h => Timer.update_inactive h interval e, fun h hr => Timer.update_running h hr interval,
    fun h hr => Timer.update_stops h hr interval, fun h hr => ?counts⟩
  have h0 : t.value ≠ 0 := by bv_omega
  have h1 : t.value ≠ 1 := by bv_omega
  have hpred : t.value - 1 = BitVec.ofNat 8 (t.value.toNat - 1) := by bv_omega
  rw [Timer.update_counts h0 h1 hr, hpred]

/-- Settles O13: each notice with what it does to `BEEP` and to the record of pulses. -/
theorem endOfCycleUpdatesBothTimers : Obligations.EndOfCycleUpdatesBothTimers := by
  intro s e
  exact State.updateTimers_eq_notices s e

end Sys2Proof.Proofs
end

section
/-! The engine halted, and the decode fault that halts it (60_exceptions.md R181, R185, R188); LDK with a key event
(45_keypad_timer_ops.md R174). -/

namespace Sys2Proof.Machine

variable {s : State}

/-- A run from a halted state: induction over its steps. -/
theorem core_run_of_halted (h : s.halt.isSome = true) (k : Nat) : core.run k s = .next s := by
  induction k with
  | zero => rfl
  | succ k ih => rw [core_run_succ (step_of_halted h), ih]

theorem encoded_ldk (x : Reg) : Encoded (.ldk x) (0xF00A + x.val * 256) 27 :=
  .of_wf rfl (congrArg (BitVec.ofNat 16) (by omega))

theorem exec_ldk_of_key {k : Key} (hk : s.input.keyEvent = some k) (x : Reg) :
    exec (.ldk x) s = .next (s.setV x (BitVec.ofNat 8 k.val)).advance := by
  simp only [exec, execLdk, hk]

theorem keyByte_toNat (k : Key) : (BitVec.ofNat 8 k.val).toNat = k.val := by
  rw [BitVec.toNat_ofNat]
  omega

/-- The step in which the key comes to a waiting LDK: its handler runs with the wait left, and its cycle ends. -/
theorem step_of_wait_key {x : Reg} {k : Key} {w : Word} (hh : s.halt = none) (hw : s.waiting = true)
    (hf : fetchWord s = .ok w) (hd : decodeWord w = .ok (.ldk x)) (hk : s.input.keyEvent = some k) :
    step s = .next (s.samplePause.enterCycle.setV x (BitVec.ofNat 8 k.val)).advance.finishCycle := by
  have hp := State.samplePause_paused_of_waiting hw
  have hbegun := State.begun_eq s hp
  have hkey : s.samplePause.enterCycle.input.keyEvent = some k := by rw [hbegun]; exact hk
  rw [step_of_decoded hh hp hf hd (exec_ldk_of_key hkey x),
    State.endCycle_of_complete (by rw [hbegun]; exact hh) (by rw [hbegun]; rfl)]

end Sys2Proof.Machine

namespace Sys2Proof.Proofs

open Sys2Proof Sys2Proof.Machine

/-- Settles O14, by induction over the steps. -/
theorem haltedEngineNeverMoves : Obligations.HaltedEngineNeverMoves := by
  intro s k h
  exact core_run_of_halted h k

/-- Settles O18: the decode fault is raised in the state of the new cycle. -/
theorem unrecognizedInstructionHalts : Obligations.UnrecognizedInstructionHalts := by
  intro s w e hh hw hp hf hd
  refine ⟨?_, rfl⟩
  rw [step_of_decode_error hh ((State.samplePause_paused_of_not_waiting hw).trans hp) hf hd,
    State.begun_eq_cycleStart hw hp]
  rfl

/-- Settles O54: the handler with a key, and the end of the cycle it completes. -/
theorem ldkStoresTheKeyAndEndsItsWait : Obligations.LdkStoresTheKeyAndEndsItsWait := by
  intro x k s hk
  refine ⟨encoded_ldk x, ⟨_, exec_ldk_of_key hk x, ?key, rfl, .of_setV x _⟩,
    fun w hh hw hf hd => ⟨_, step_of_wait_key hh hw hf hd hk, ?_⟩⟩
  case key => rw [State.readV_advance, State.readV_setV_self, keyByte_toNat]
  rw [State.finishCycle_eq, State.begun_eq s (State.samplePause_paused_of_waiting hw)]
  refine ⟨?storedKey, rfl, rfl, rfl, rfl⟩
  exact (congrArg BitVec.toNat (State.readV_setV_self x _)).trans (keyByte_toNat k)

end Sys2Proof.Proofs
end

section
/-! The match and mask table against the decoder: a masked word tests the fields under the mask (30_encoding.md R74). -/

namespace Sys2Proof

variable {w m : Word} {c : Nat}

/-- Masking acts on every field by itself. -/
theorem bits_and (w k : Word) (hi lo : Nat) : bits (w &&& k) hi lo = bits w hi lo &&& bits k hi lo := by
  simp [bits, Nat.and_div_two_pow, Nat.and_mod_two_pow]

/-- A mask of ones over a field keeps it. -/
theorem bits_and_ones {k : Word} {hi lo : Nat} (h : bits k hi lo = 2 ^ (hi + 1 - lo) - 1) :
    bits (w &&& k) hi lo = bits w hi lo := by
  rw [bits_and, h, Nat.and_two_pow_sub_one_eq_mod, bits, Nat.mod_mod]

/-- A mask of zeros over a field clears it. -/
theorem bits_and_zeros {k : Word} {hi lo : Nat} (h : bits k hi lo = 0) : bits (w &&& k) hi lo = 0 := by
  rw [bits_and, h, Nat.and_zero]

/-- A word is its class, its bits 11 to 8 and its low byte. -/
theorem word_eq_iff_op3 : w = m ↔ op1 w = op1 m ∧ bits w 11 8 = bits m 11 8 ∧ op3 w = op3 m := by
  have := w.isLt
  have := m.isLt
  simp only [← BitVec.toNat_inj, op1_eq, op3_eq, bits]
  omega

/-- A word is its class, its bits 11 to 4 and its low nibble. -/
theorem word_eq_iff_op2 : w = m ↔ op1 w = op1 m ∧ bits w 11 4 = bits m 11 4 ∧ op2 w = op2 m := by
  have := w.isLt
  have := m.isLt
  simp only [← BitVec.toNat_inj, op1_eq, op2_eq, bits]
  omega

/-- Mask `F000` tests the class. -/
theorem and_F000_eq_iff (hx : bits m 11 8 = 0) (h3 : op3 m = 0) : w &&& 0xF000 = m ↔ op1 w = op1 m := by
  rw [word_eq_iff_op3, hx, h3, op1, op3, bits_and_ones (by decide), bits_and_zeros (by decide),
    bits_and_zeros (by decide)]
  simp [op1]

/-- Mask `F0FF` tests the class and the low byte. -/
theorem and_F0FF_eq_iff (hx : bits m 11 8 = 0) : w &&& 0xF0FF = m ↔ op1 w = op1 m ∧ op3 w = op3 m := by
  rw [word_eq_iff_op3, hx, op1, op3, bits_and_ones (by decide), bits_and_zeros (by decide),
    bits_and_ones (by decide)]
  simp [op1, op3]

/-- Mask `F00F` tests the class and the low nibble. -/
theorem and_F00F_eq_iff (hxy : bits m 11 4 = 0) : w &&& 0xF00F = m ↔ op1 w = op1 m ∧ op2 w = op2 m := by
  rw [word_eq_iff_op2, hxy, op1, op2, bits_and_ones (by decide), bits_and_zeros (by decide),
    bits_and_ones (by decide)]
  simp [op1, op2]

/-- The test of one row of the table. -/
def rowMatches (w : Word) (row : Nat × Word × Word) : Bool := w &&& row.2.2 == row.2.1

/-- The rows of one class, in the table's priority order. -/
def classRows (c : Nat) : List (Nat × Word × Word) := opcodeRows.filter fun row => op1 row.2.1 == c

/-- Every row tests the class, so only the rows of the word's own class can match. -/
theorem tableIndex_eq_classRows (hc : op1 w = c) :
    tableIndex w = ((classRows c).find? (rowMatches w)).map (·.1) := by
  have hmask : ∀ row ∈ opcodeRows, bits row.2.2 15 12 = 2 ^ (15 + 1 - 12) - 1 := by decide
  rw [tableIndex, classRows, List.find?_filter]
  congr 1
  refine List.find?_congr fun row hrow => Bool.eq_iff_iff.2 ?_
  suffices h : w &&& row.2.2 = row.2.1 → op1 row.2.1 = c by simpa [rowMatches] using h
  intro h
  rw [← h, ← hc]
  exact bits_and_ones (hmask row hrow)

/-! Within the word's class, a row tests nothing more, the low byte, or the low nibble. -/

theorem rowMatches_F000 {k : Nat} (hc : op1 w = op1 m) (hx : bits m 11 8 = 0) (h3 : op3 m = 0) :
    rowMatches w (k, m, 0xF000) = true :=
  beq_iff_eq.2 ((and_F000_eq_iff hx h3).2 hc)

theorem rowMatches_F0FF {k : Nat} (hc : op1 w = op1 m) (hx : bits m 11 8 = 0) :
    rowMatches w (k, m, 0xF0FF) = (op3 w == op3 m) :=
  Bool.eq_iff_iff.2 (by rw [rowMatches, beq_iff_eq, and_F0FF_eq_iff hx, beq_iff_eq, and_iff_right hc])

theorem rowMatches_F00F {k : Nat} (hc : op1 w = op1 m) (hxy : bits m 11 4 = 0) :
    rowMatches w (k, m, 0xF00F) = (op2 w == op2 m) :=
  Bool.eq_iff_iff.2 (by rw [rowMatches, beq_iff_eq, and_F00F_eq_iff hxy, beq_iff_eq, and_iff_right hc])

/-- A class of one row is that row's, whatever the other bits are. -/
theorem tableIndex_of_single_row {k : Nat} (hc : op1 w = c) (hrows : classRows c = [(k, m, 0xF000)])
    (hm : op1 m = c) (hx : bits m 11 8 = 0) (h3 : op3 m = 0) : tableIndex w = some k := by
  rw [tableIndex_eq_classRows hc, hrows, List.find?_cons_of_pos (rowMatches_F000 (hc.trans hm.symm) hx h3)]
  rfl

/-- Class 0 in priority order: CLS, RET, and SYS for the rest (R75). -/
theorem tableIndex_of_class0 (hc : op1 w = 0) : tableIndex w = some (dispatchIndex (decodeClass0 w)) := by
  have hrows : classRows 0 = [(1, 0x00E0, 0xF0FF), (2, 0x00EE, 0xF0FF), (0, 0x0000, 0xF000)] := rfl
  have hcls : rowMatches w (1, 0x00E0, 0xF0FF) = decide (op3 w = 0xE0) := rowMatches_F0FF hc rfl
  have hret : rowMatches w (2, 0x00EE, 0xF0FF) = decide (op3 w = 0xEE) := rowMatches_F0FF hc rfl
  have hsys : rowMatches w (0, 0x0000, 0xF000) = true := rowMatches_F000 hc rfl rfl
  rw [tableIndex_eq_classRows hc, hrows, dispatchIndex_decodeClass0]
  simp only [List.find?_cons, hcls, hret, hsys]
  split_ifs <;> simp [*]

/-- Class E in priority order: SKP, and SKNP for the rest (R77). -/
theorem tableIndex_of_classE (hc : op1 w = 0xE) : tableIndex w = some (dispatchIndex (decodeClassE w)) := by
  have hrows : classRows 0xE = [(24, 0xE09E, 0xF0FF), (25, 0xE000, 0xF000)] := rfl
  have hskp : rowMatches w (24, 0xE09E, 0xF0FF) = decide (op3 w = 0x9E) := rowMatches_F0FF hc rfl
  have hsknp : rowMatches w (25, 0xE000, 0xF000) = true := rowMatches_F000 hc rfl rfl
  rw [tableIndex_eq_classRows hc, hrows, dispatchIndex_decodeClassE]
  simp only [List.find?_cons, hskp, hsknp]
  split_ifs <;> simp [*]

/-- Class 8: the row of the low nibble, none for seven of them (R79). -/
theorem tableIndex_of_class8 (hc : op1 w = 0x8) : tableIndex w = decodedIndex (decodeClass8 w) := by
  have hrow : ∀ row ∈ classRows 0x8,
      row = (row.1, row.2.1, 0xF00F) ∧ op1 row.2.1 = 0x8 ∧ bits row.2.1 11 4 = 0 := by decide
  have hfind : ∀ k < 16, ((classRows 0x8).find? fun row => k == op2 row.2.1).map (·.1) =
      if k ≤ 0x7 then some (k + 10) else if k = 0xE then some 18 else none := by decide
  have hlt : op2 w < 16 := op2_eq w ▸ Nat.mod_lt _ (by decide)
  rw [tableIndex_eq_classRows hc, decodedIndex_decodeClass8, ← hfind _ hlt]
  congr 1
  refine List.find?_congr fun row hmem => ?_
  obtain ⟨heq, h1, hxy⟩ := hrow row hmem
  rw [heq, rowMatches_F00F (hc.trans h1.symm) hxy]

/-- Class F: the row of the low byte, none for all but nine of them (R78). -/
theorem tableIndex_of_classF (hc : op1 w = 0xF) : tableIndex w = decodedIndex (decodeClassF w) := by
  have hrow : ∀ row ∈ classRows 0xF,
      row = (row.1, row.2.1, 0xF0FF) ∧ op1 row.2.1 = 0xF ∧ bits row.2.1 11 8 = 0 := by decide
  have hrows : classFRows = (classRows 0xF).map fun row => (op3 row.2.1, row.1) := rfl
  rw [tableIndex_eq_classRows hc, decodedIndex_decodeClassF, hrows, List.find?_map, Option.map_map]
  congr 1
  refine List.find?_congr fun row hmem => ?_
  obtain ⟨heq, h1, hx⟩ := hrow row hmem
  rw [heq, rowMatches_F0FF (hc.trans h1.symm) hx]
  exact BEq.comm

theorem op1_lt (w : Word) : op1 w < 16 := by
  have := w.isLt
  rw [op1_eq]
  omega

/-- The decoder answers with the index of the first matching row, one class after another. -/
theorem decodedIndex_eq_tableIndex (w : Word) : decodedIndex (decodeWord w) = tableIndex w := by
  unfold decodeWord
  split
  case h_1 hc => exact (tableIndex_of_class0 hc).symm
  case h_9 hc => exact (tableIndex_of_class8 hc).symm
  case h_15 hc => exact (tableIndex_of_classE hc).symm
  case h_16 =>
    have hF : op1 w = 0xF := by
      have := op1_lt w
      simp only [imp_false] at *
      omega
    exact (tableIndex_of_classF hF).symm
  all_goals
    rename_i hc
    exact (tableIndex_of_single_row hc rfl rfl rfl rfl).symm

end Sys2Proof

namespace Sys2Proof.Proofs

open Sys2Proof

/-- Settles O5: in every class the rows of that class, in their order, are the decoder's tests. -/
theorem decoderAgreesWithTheOpcodeTable : Obligations.DecoderAgreesWithTheOpcodeTable := by
  intro w
  exact decodedIndex_eq_tableIndex w

/-- Settles O7, by evaluating the decoder on each word. -/
theorem sampleWordsDecode : Obligations.SampleWordsDecode :=
  ⟨rfl, rfl, rfl, rfl, rfl, rfl, rfl⟩

end Sys2Proof.Proofs
end

section
/-! The record a faulting handler leaves (60_exceptions.md R186, R187), an access out of range (R184), and the fetch
fault (40_dispatch_cycle.md R91). -/

namespace Sys2Proof.Machine

variable {i : Instr} {s : State}

/-- The handlers with a fault of their own, and what its record holds (R187). -/
theorem HandlerFault.code_and_addr {code : FaultCode} {addr : Option Word} (h : HandlerFault i code addr) :
    (dispatchIndex i = 4 ∧ code = .stackOverflow ∧ addr = none) ∨
    (dispatchIndex i = 2 ∧ code = .stackUnderflow ∧ addr = none) ∨
    (dispatchIndex i ∈ [23, 32, 33, 34] ∧ code = .addressFault ∧ ∃ ea, addr = some ea ∧ 4096 ≤ ea.toNat) := by
  cases h with
  | call nnn => exact .inl ⟨rfl, rfl, rfl⟩
  | ret n => exact .inr (.inl ⟨rfl, rfl, rfl⟩)
  | drw _ _ _ hea | ldbcd _ hea | ldrw _ hea | ldrs _ hea =>
    exact .inr (.inr ⟨by simp [dispatchIndex], rfl, _, rfl, hea⟩)

end Sys2Proof.Machine

namespace Sys2Proof.Proofs

open Sys2Proof Sys2Proof.Machine

/-- Settles O21: a handler that leaves a record raised one of its faults, by the cases of `HandlerFault`. -/
theorem handlersRaiseOnlyTheirFault : Obligations.HandlersRaiseOnlyTheirFault := by
  intro i s t r hs h ht
  obtain ⟨code, addr, hf, rfl⟩ := exec_eq_raise_of_halt hs h ht
  cases ht
  exact ⟨rfl, rfl, hf.code_and_addr⟩

/-- Settles O44: each of the four handlers is one checked access, and the check fails before anything changes. -/
theorem outOfRangeAccessRaisesAddressFault : Obligations.OutOfRangeAccessRaisesAddressFault := by
  intro i n s hout hi
  rcases hi with ⟨x, y, m, rfl, rfl⟩ | ⟨x, rfl, rfl⟩ | ⟨x, rfl, rfl⟩ | ⟨x, rfl, rfl⟩ <;>
    exact congrArg Host.Outcome.next (State.checked_of_not_ok hout _ _)

/-- Settles O17: the fetch fault is raised in the state of the new cycle. -/
theorem fetchFaultIsRecorded : Obligations.FetchFaultIsRecorded := by
  intro s ea hh hw hp hf
  refine ⟨?_, rfl⟩
  rw [step_of_fetch_error hh ((State.samplePause_paused_of_not_waiting hw).trans hp) hf,
    State.begun_eq_cycleStart hw hp]
  rfl

end Sys2Proof.Proofs
end

section
/-! CALL, the skips and JPV0 (41_flow.md R114 to R119, 60_exceptions.md R182). -/

namespace Sys2Proof.Machine

variable {i : Instr} {s : State} {x y : Reg}

/-- An instruction `pxkk` has its word with the byte next to the class (R74). -/
theorem Encoded.of_xkk (c kk : Nat) (h : i.wf = true) (he : encode i = encodeXKK c x kk) :
    Encoded i (c * 4096 + kk + x.val * 256) (dispatchIndex i) :=
  .of_wf h (he.trans (congrArg (BitVec.ofNat 16) (by omega)))

theorem encoded_call (nnn : Addr12) : Encoded (.call nnn) (0x2000 + nnn.toNat) 4 := .of_wf rfl rfl

theorem encoded_jpv0 (nnn : Addr12) : Encoded (.jpv0 nnn) (0xB000 + nnn.toNat) 21 := .of_wf rfl rfl

theorem encoded_seKk (x : Reg) (kk : Byte) : Encoded (.seKk x kk) (0x3000 + x.val * 256 + kk.toNat) 5 :=
  .of_wf rfl rfl

theorem encoded_sneKk (x : Reg) (kk : Byte) : Encoded (.sneKk x kk) (0x4000 + x.val * 256 + kk.toNat) 6 :=
  .of_wf rfl rfl

theorem encoded_seVy (x y : Reg) (n : Nibble) :
    Encoded (.seVy x y n) (0x5000 + x.val * 256 + y.val * 16 + n.toNat) 7 := .of_wf rfl rfl

theorem encoded_sneVy (x y : Reg) (n : Nibble) :
    Encoded (.sneVy x y n) (0x9000 + x.val * 256 + y.val * 16 + n.toNat) 19 := .of_wf rfl rfl

/-- CALL on a full stack under `strict` (R182). -/
theorem exec_call_of_full_strict (h : 16 ≤ s.sp.toNat) (hp : s.params.stackPolicy = .strict) (nnn : Addr12) :
    exec (.call nnn) s = .next (s.raise .stackOverflow (some (encode (.call nnn))) none) := by
  simp only [exec, execCall, h.not_gt, dif_neg, not_false_iff, State.stackViolation_strict hp]

/-- A push with `k` return addresses pending, as a record (10_state.md R28). -/
theorem State.push_eq {k : Fin 16} (hk : s.sp.toNat = k.val) (a : Word) (h : s.sp.toNat < 16) :
    s.push a h = { s with sp := BitVec.ofNat 8 (k.val + 1), stack := s.stack.set k.val a } := by
  have hsp : s.sp + 1 = BitVec.ofNat 8 (k.val + 1) := by bv_omega
  simp only [State.push, State.setSp, State.setStack, hsp, hk]

/-- CALL with `k` return addresses pending (R114). -/
theorem exec_call_of_sp_eq {k : Fin 16} (hk : s.sp.toNat = k.val) (nnn : Addr12) :
    exec (.call nnn) s = .next { s with
      pc := zextAddr nnn, sp := BitVec.ofNat 8 (k.val + 1), stack := s.stack.set k.val (s.pc + 2) } := by
  have hsp : s.sp.toNat < 16 := hk ▸ k.isLt
  rw [exec_call_of_room hsp, State.push_eq hk]
  rfl

/-- A skip adds its amount to `PC` (R95). -/
theorem State.skipIf_eq (s : State) (c : Bool) : s.skipIf c = { s with pc := s.pc + if c then 4 else 2 } := by
  cases c <;> rfl

theorem State.skipIf_not_eq (s : State) (c : Bool) : s.skipIf (!c) = { s with pc := s.pc + if c then 2 else 4 } := by
  cases c <;> rfl

theorem State.skipIf_beq (s : State) (a b : Byte) :
    s.skipIf (a == b) = { s with pc := s.pc + if a = b then 4 else 2 } := by
  rw [State.skipIf_eq]
  simp only [beq_iff_eq]

theorem State.skipIf_bne (s : State) (a b : Byte) :
    s.skipIf (a != b) = { s with pc := s.pc + if a = b then 2 else 4 } := by
  rw [bne, State.skipIf_not_eq]
  simp only [beq_iff_eq]

end Sys2Proof.Machine

namespace Sys2Proof.Proofs

open Sys2Proof Sys2Proof.Machine

/-- Settles O31: the RET pops the entry the CALL has pushed, and no other entry has changed. -/
theorem retUndoesCall : Obligations.RetUndoesCall := by
  intro nnn n s hsp
  have hpushed : (s.sp + 1).toNat = s.sp.toNat + 1 := by bv_omega
  refine ⟨_, _, exec_call_of_room hsp nnn, exec_ret_of_live (k := ⟨s.sp.toNat, hsp⟩) hpushed n, ?back, ?others⟩
  case back => simp [State.push, State.setPc, State.setSp, State.setStack, add_sub_cancel_right]
  case others =>
    intro k hk
    simp [State.push, Ne.symm hk]

/-- Settles O28: `PC` is the sum, which does not wrap. -/
theorem jpv0AddsV0 : Obligations.Jpv0AddsV0 := by
  intro nnn s
  exact ⟨encoded_jpv0 nnn, _, zextAddr_add_zextByte_toNat nnn (s.readV 0), rfl⟩

/-- Settles O30: a push where there is room, and on a full stack a violation, answered by the stack policy. -/
theorem callPushesOrOverflows : Obligations.CallPushesOrOverflows := by
  intro nnn s
  refine ⟨encoded_call nnn, fun k hk => ?push, fun hsp hp => ?strict, fun hsp hp => ?permissive, rfl⟩
  case push => rw [exec_call_of_sp_eq hk, zextAddr_eq_ofNat]
  case strict => exact exec_call_of_full_strict hsp.ge hp nnn
  case permissive => exact exec_call_of_full hsp.ge hp nnn

/-- Settles O32: each handler is a skip on its comparison. -/
theorem skipsCompareAndPassOver : Obligations.SkipsCompareAndPassOver := by
  intro x y kk n s
  exact ⟨encoded_seKk x kk, congrArg Host.Outcome.next (State.skipIf_beq s _ _),
    encoded_sneKk x kk, congrArg Host.Outcome.next (State.skipIf_bne s _ _),
    encoded_seVy x y n, congrArg Host.Outcome.next (State.skipIf_beq s _ _),
    encoded_sneVy x y n, congrArg Host.Outcome.next (State.skipIf_bne s _ _)⟩

end Sys2Proof.Proofs
end

section
/-! The other register and arithmetic instructions: ADD_KK, LD_VY, OR, AND, XOR, SUB, SUBN and RND (42_alu.md R132 to
R136, R138, R140, R142). -/

namespace Sys2Proof.Machine

theorem encoded_addKk (x : Reg) (kk : Byte) : Encoded (.addKk x kk) (0x7000 + x.val * 256 + kk.toNat) 9 :=
  .of_wf rfl rfl

theorem encoded_rnd (x : Reg) (kk : Byte) : Encoded (.rnd x kk) (0xC000 + x.val * 256 + kk.toNat) 22 :=
  .of_wf rfl rfl

theorem encoded_ldVy (x y : Reg) : Encoded (.ldVy x y) (0x8000 + x.val * 256 + y.val * 16) 10 :=
  .of_class8 0x0 rfl rfl

theorem encoded_or (x y : Reg) : Encoded (.or x y) (0x8001 + x.val * 256 + y.val * 16) 11 :=
  .of_class8 0x1 rfl rfl

theorem encoded_and (x y : Reg) : Encoded (.and x y) (0x8002 + x.val * 256 + y.val * 16) 12 :=
  .of_class8 0x2 rfl rfl

theorem encoded_xor (x y : Reg) : Encoded (.xor x y) (0x8003 + x.val * 256 + y.val * 16) 13 :=
  .of_class8 0x3 rfl rfl

theorem encoded_sub (x y : Reg) : Encoded (.sub x y) (0x8005 + x.val * 256 + y.val * 16) 15 :=
  .of_class8 0x5 rfl rfl

theorem encoded_subn (x y : Reg) : Encoded (.subn x y) (0x8007 + x.val * 256 + y.val * 16) 17 :=
  .of_class8 0x7 rfl rfl

/-- A difference of bytes wraps modulo 256 (R138). -/
theorem byte_sub_toNat (a b : Byte) : (a - b).toNat = (a.toNat + 256 - b.toNat) % 256 := by bv_omega

theorem flagByte_notBorrowFlag (a b : Byte) :
    flagByte (notBorrowFlag a b) = if b.toNat ≤ a.toNat then 1 else 0 := by
  simp [flagByte, notBorrowFlag]

/-- A masked byte has no bit outside its mask. -/
theorem and_and_not_self (a m : Byte) : a &&& m &&& ~~~m = 0 := by
  rw [BitVec.and_assoc, BitVec.and_not_self]
  exact BitVec.and_zero

end Sys2Proof.Machine

namespace Sys2Proof.Proofs

open Sys2Proof Sys2Proof.Machine

/-- Settles O34: ADD_KK is one register write and the advance, with that operation's frame. -/
theorem addKkWrapsWithoutFlag : Obligations.AddKkWrapsWithoutFlag := by
  intro x kk s
  refine ⟨encoded_addKk x kk, _, rfl, ?sum, rfl, .of_setV x _⟩
  case sum => rw [State.readV_advance, State.readV_setV_self, BitVec.toNat_add]

/-- Settles O35: each of the four is one register write and the advance. -/
theorem copyAndLogicWriteNoFlag : Obligations.CopyAndLogicWriteNoFlag := by
  intro x y s
  exact ⟨⟨encoded_ldVy x y, _, rfl, State.readV_setV_self x _, rfl, .of_setV x _⟩,
    ⟨encoded_or x y, _, rfl, State.readV_setV_self x _, rfl, .of_setV x _⟩,
    ⟨encoded_and x y, _, rfl, State.readV_setV_self x _, rfl, .of_setV x _⟩,
    ⟨encoded_xor x y, _, rfl, State.readV_setV_self x _, rfl, .of_setV x _⟩⟩

/-- Settles O37: the difference is what the result's write leaves where `X` is not 15, and not-borrow is the flag. -/
theorem subAndSubnSetNotBorrow : Obligations.SubAndSubnSetNotBorrow := by
  intro x y s
  refine ⟨⟨encoded_sub x y, _, rfl, fun hx => ?sub, ?subFlag, rfl, .of_writeResult x _ _⟩,
    ⟨encoded_subn x y, _, rfl, fun hx => ?subn, ?subnFlag, rfl, .of_writeResult x _ _⟩⟩
  case sub | subn => rw [State.readV_writeResult_self hx, byte_sub_toNat]
  case subFlag | subnFlag => rw [State.readV_writeResult_flag, flagByte_notBorrowFlag]

/-- Settles O39: the masked byte is what the register's write leaves. -/
theorem rndMasksTheRandomByte : Obligations.RndMasksTheRandomByte := by
  intro x kk s
  have hx : (s.setV x (s.input.rnd &&& kk)).advance.readV x = s.input.rnd &&& kk := State.readV_setV_self x _
  exact ⟨encoded_rnd x kk, _, rfl, hx, by rw [hx, and_and_not_self], rfl, .of_setV x _⟩

end Sys2Proof.Proofs
end

section
/-! The keypad, and the timers read and written (45_keypad_timer_ops.md R171 to R173, R175, R176). -/

namespace Sys2Proof.Machine

variable {s : State}

theorem encoded_skp (x : Reg) : Encoded (.skp x) (0xE09E + x.val * 256) 24 := .of_xkk 0xE 0x9E rfl rfl

theorem encoded_sknp (x : Reg) {kk : Byte} (h : kk ≠ 0x9E) :
    Encoded (.sknp x kk) (0xE000 + x.val * 256 + kk.toNat) 25 :=
  .of_wf (bne_iff_ne.2 h) rfl

theorem encoded_ldvdt (x : Reg) : Encoded (.ldvdt x) (0xF007 + x.val * 256) 26 := .of_xkk 0xF 0x07 rfl rfl

theorem encoded_lddt (x : Reg) : Encoded (.lddt x) (0xF015 + x.val * 256) 28 := .of_xkk 0xF 0x15 rfl rfl

theorem encoded_ldst (x : Reg) : Encoded (.ldst x) (0xF018 + x.val * 256) 29 := .of_xkk 0xF 0x18 rfl rfl

/-- A key number 0 to 15 asks for the state of that key (R200). -/
theorem State.keyDown_of_key {b : Byte} {k : Key} (h : b.toNat = k.val) : s.keyDown b = s.input.keysDown[k.val] := by
  simp [State.keyDown, h]

/-- Above, the answer is free (R200, decision D16). -/
theorem State.keyDown_beyond {b : Byte} (h : 16 ≤ b.toNat) : s.keyDown b = s.input.keyBeyond :=
  dif_neg h.not_gt

theorem Timer.load_remaining_zero {b : Byte} (hb : b = 0) (interval : Nat) : (Timer.load interval b).remaining = 0 :=
  if_pos hb

end Sys2Proof.Machine

namespace Sys2Proof.Proofs

open Sys2Proof Sys2Proof.Machine

/-- Settles O52: the one answer is `State.keyDown` of `V[X]`, and the two handlers skip on it and on its negation. -/
theorem keySkipsFollowTheKeypad : Obligations.KeySkipsFollowTheKeypad := by
  intro x kk s
  exact ⟨s.keyDown (s.readV x), fun k hk => State.keyDown_of_key hk, State.keyDown_beyond, encoded_skp x,
    congrArg Host.Outcome.next (State.skipIf_eq s _), encoded_sknp x,
    congrArg Host.Outcome.next (State.skipIf_not_eq s _)⟩

/-- Settles O53: LDVDT is one register write and the advance, with that operation's frame. -/
theorem ldvdtReadsTheDelayTimer : Obligations.LdvdtReadsTheDelayTimer := by
  intro x s
  exact ⟨encoded_ldvdt x, _, rfl, State.readV_setV_self x _, rfl, .of_setV x _⟩

/-- Settles O56: the timer that both write is the one `Timer.load` arms with `V[X]`. -/
theorem timerWritesArmAFullInterval : Obligations.TimerWritesArmAFullInterval := by
  intro x s
  exact ⟨Timer.load s.params.interval (s.readV x), rfl, fun hb => Timer.load_remaining_zero hb _,
    fun hb => Timer.load_remaining hb _, encoded_lddt x, rfl, encoded_ldst x, rfl⟩

end Sys2Proof.Proofs
end

section
/-! The address register, and the accesses through it: LDI, ADDI, LDF, LDBCD, LDRW, LDRS (43_index_memory.md R151 to
R156) and DRW (44_display.md R166). -/

namespace Sys2Proof.Machine

variable {s : State} {x y : Reg}

theorem encoded_ldi (nnn : Addr12) : Encoded (.ldi nnn) (0xA000 + nnn.toNat) 20 := .of_wf rfl rfl

theorem encoded_addi (x : Reg) : Encoded (.addi x) (0xF01E + x.val * 256) 30 := .of_xkk 0xF 0x1E rfl rfl

theorem encoded_ldf (x : Reg) : Encoded (.ldf x) (0xF029 + x.val * 256) 31 := .of_xkk 0xF 0x29 rfl rfl

theorem encoded_ldbcd (x : Reg) : Encoded (.ldbcd x) (0xF033 + x.val * 256) 32 := .of_xkk 0xF 0x33 rfl rfl

theorem encoded_ldrw (x : Reg) : Encoded (.ldrw x) (0xF055 + x.val * 256) 33 := .of_xkk 0xF 0x55 rfl rfl

theorem encoded_ldrs (x : Reg) : Encoded (.ldrs x) (0xF065 + x.val * 256) 34 := .of_xkk 0xF 0x65 rfl rfl

theorem encoded_drw (x y : Reg) (n : Fin 16) :
    Encoded (.drw x y n) (0xD000 + x.val * 256 + y.val * 16 + n.val) 23 := .of_wf rfl rfl

/-- The sum of ADDI as a number (R152). -/
theorem add_zextByte_eq_ofNat (a : Word) (b : Byte) :
    a + zextByte b = BitVec.ofNat 16 ((a.toNat + b.toNat) % 65536) := by
  apply BitVec.eq_of_toNat_eq
  rw [BitVec.toNat_add, zextByte_toNat, BitVec.toNat_ofNat, Nat.mod_mod]

/-! The four handlers with their accesses in range. -/

theorem exec_ldbcd_of_accessOk (h : AccessOk s 3) :
    exec (.ldbcd x) s = .next (s.storeAtI (bcdDigits (s.readV x))).advance :=
  congrArg Host.Outcome.next (State.checked_of_ok h _ _)

theorem exec_ldrs_of_accessOk (h : AccessOk s (x.val + 1)) :
    exec (.ldrs x) s = .next (s.setRegBlock x (s.loadAtI (x.val + 1))).advance :=
  congrArg Host.Outcome.next (State.checked_of_ok h _ _)

theorem exec_drw_of_accessOk {n : Fin 16} (h : AccessOk s n.val) :
    exec (.drw x y n) s = .next (s.blitAtI x y n.val).advance :=
  congrArg Host.Outcome.next (State.checked_of_ok h _ _)

/-! What the accesses store and load. -/

/-- The frame of an instruction that stores bytes from `I` upward and advances. -/
theorem StoreFrame.of_storeAtI {bs : List Byte} {n : Nat} (h : bs.length = n) :
    StoreFrame s (s.storeAtI bs).advance n where
  others := rfl
  memory a ha := read_storeBytes_of_ne a bs s.mem s.i (h ▸ ha)

/-- The digits of a byte, each as a number (R154). -/
theorem bcdDigits_toNat (b : Byte) :
    (bcdDigits b).map BitVec.toNat = [b.toNat / 100, b.toNat / 10 % 10, b.toNat % 10] := by
  have := b.isLt
  simp [bcdDigits]
  omega

/-- A digit stored from `I` upward, read back from its address. -/
theorem read_storeAtI_bcdDigits (hm : s.mem.wf = true) (b : Byte) {k : Nat} (hk : k < 3) :
    ((s.storeAtI (bcdDigits b)).mem.read (memIndex (effectiveAddress s.i k))).toNat =
      [b.toNat / 100, b.toNat / 10 % 10, b.toNat % 10][k] := by
  have hlt : k < (bcdDigits b).length := hk
  have hlen : (bcdDigits b).length ≤ 4096 := by simp [bcdDigits]
  rw [State.storeAtI_mem, read_storeBytes_at _ s.i hm hlen k hlt]
  simp only [← bcdDigits_toNat b, List.getElem_map]

/-- A byte of the block loaded from `I` upward. -/
theorem State.loadAtI_getD {n k : Nat} (hk : k < n) :
    (s.loadAtI n).getD k 0 = s.mem.read (memIndex (effectiveAddress s.i k)) := by
  simp [State.loadAtI, loadBytes_eq_map, hk]

/-- A block loaded into the registers and the advance, as a record. -/
theorem State.setRegBlock_advance (s : State) (x : Reg) (bs : List Byte) :
    (s.setRegBlock x bs).advance = { s with v := (s.setRegBlock x bs).v, pc := s.pc + 2 } := by
  simp only [State.advance, State.setPc, State.setRegBlock]

/-- A register after LDRS's load (R156). -/
theorem readV_setRegBlock_loadAtI (k : Reg) :
    (s.setRegBlock x (s.loadAtI (x.val + 1))).readV k =
      if k.val ≤ x.val then s.mem.read (memIndex (effectiveAddress s.i k.val)) else s.readV k := by
  rw [State.readV_setRegBlock]
  split_ifs with hk
  · exact State.loadAtI_getD (Nat.lt_succ_of_le hk)
  · rfl

end Sys2Proof.Machine

namespace Sys2Proof.Proofs

open Sys2Proof Sys2Proof.Machine

/-- Settles O40: each handler is one write of `I` and the advance. -/
theorem addressRegisterWrites : Obligations.AddressRegisterWrites := by
  intro nnn x s
  refine ⟨encoded_ldi nnn, ?ldi, encoded_addi x, ?addi, encoded_ldf x, rfl⟩
  case ldi =>
    rw [← zextAddr_eq_ofNat]
    rfl
  case addi =>
    rw [← add_zextByte_eq_ofNat]
    rfl

/-- Settles O41: the three stored digits are read back, each from its own address. -/
theorem ldbcdStoresThreeDigits : Obligations.LdbcdStoresThreeDigits := by
  intro x s hm hok
  exact ⟨encoded_ldbcd x, _, exec_ldbcd_of_accessOk hok, read_storeAtI_bcdDigits hm _ (by decide),
    read_storeAtI_bcdDigits hm _ (by decide), read_storeAtI_bcdDigits hm _ (by decide), rfl, .of_storeAtI rfl⟩

/-- Settles O42: the stored block is read back register by register. -/
theorem ldrwStoresTheRegisterBlock : Obligations.LdrwStoresTheRegisterBlock := by
  intro x s hm hok
  exact ⟨encoded_ldrw x, _, exec_ldrw_of_accessOk hok, fun k hk => loadByte_storeAtI_regBlock hm hk, rfl,
    .of_storeAtI (State.regBlock_length s x)⟩

/-- Settles O43: a register is the byte at its address up to `X`, and above it what it was. -/
theorem ldrsLoadsTheRegisterBlock : Obligations.LdrsLoadsTheRegisterBlock := by
  intro x s hok
  refine ⟨encoded_ldrs x, _, exec_ldrs_of_accessOk hok, fun k hk => ?loaded, fun k hk => ?kept, ?pc, ?others,
    fun a => ?memory⟩
  case loaded => rw [State.readV_advance, readV_setRegBlock_loadAtI, if_pos hk]
  case kept => rw [State.readV_advance, readV_setRegBlock_loadAtI, if_neg hk.not_ge]
  case pc => rw [State.advance_pc, State.setRegBlock_pc]
  case others => rw [State.setRegBlock_advance]
  case memory => rw [State.advance_mem, State.setRegBlock_mem]

/-- Settles O45: LDRS loads each register up to `X` from the address to which LDRW has stored it. -/
theorem ldrsRestoresWhatLdrwStored : Obligations.LdrsRestoresWhatLdrwStored := by
  intro x s v hm hok
  refine ⟨_, _, exec_ldrw_of_accessOk hok, exec_ldrs_of_accessOk hok, fun k => ?_⟩
  rw [State.readV_advance, readV_setRegBlock_loadAtI]
  split_ifs with hk
  · exact loadByte_storeAtI_regBlock hm hk
  · rfl

/-- Settles O49: the blit of the bytes at `I`, which with none of them draws nothing. -/
theorem drwDrawsTheBytesAtI : Obligations.DrwDrawsTheBytesAtI := by
  intro x y n s hok
  refine ⟨encoded_drw x y n, _, rfl, ?draw, fun hn => ?nothing⟩
  case draw =>
    rw [exec_drw_of_accessOk hok, ← loadBytes_eq_map]
    rfl
  case nothing =>
    rw [hn]
    exact ⟨rfl, rfl⟩

end Sys2Proof.Proofs
end

section
/-! Reset and the loader (10_state.md R38, 70_reset_and_hazards.md R211, R213). -/

namespace Sys2Proof.Machine

variable {s : State}

/-- A timer of zeros is consistent. -/
theorem Timer.Ok.zero (interval : Nat) : Timer.Ok interval ⟨0, 0⟩ := ⟨fun _ => rfl, Int.natCast_nonneg interval⟩

theorem fontData_length : fontData.length = 80 := rfl

/-- Unwritten memory reads as the font from address 0 on (R57). -/
theorem map_read_nil_range : (List.range 80).map (Memory.read []) = fontData := by
  refine List.ext_getElem (by simp [fontData_length]) fun k _ hk => ?_
  rw [List.getElem_map, List.getElem_range, Memory.read, resetByte, List.getD_eq_getElem fontData 0 hk]

/-- The addresses of the loader run from `LOAD_ADDR` up without wrap-around. -/
theorem memIndex_loadAddr_add {k : Nat} (hk : k < 3584) : memIndex (effectiveAddress loadAddr k) = 0x200 + k := by
  have : loadAddr.toNat = 0x200 := rfl
  rw [memIndex_effectiveAddress]
  omega

/-- A program that fits stands from `LOAD_ADDR` on, and every other byte is as before. -/
theorem read_storeBytes_loadAddr {m : Memory} (hm : m.wf = true) {program : List Byte} (h : program.length ≤ 3584)
    (a : Nat) : (storeBytes m loadAddr program).read a =
      if 0x200 ≤ a ∧ a < 0x200 + program.length then program.getD (a - 0x200) 0 else m.read a := by
  split_ifs with ha
  case pos =>
    obtain ⟨k, rfl⟩ := Nat.exists_eq_add_of_le ha.1
    have hk : k < program.length := by omega
    have hread : (storeBytes m loadAddr program).read (0x200 + k) = program[k] :=
      memIndex_loadAddr_add (k := k) (by omega) ▸ read_storeBytes_at program loadAddr hm (by omega) k hk
    rw [hread, Nat.add_sub_cancel_left, List.getD_eq_getElem program 0 hk]
  case neg =>
    refine read_storeBytes_of_ne a program m loadAddr fun k hk => ?_
    rw [memIndex_loadAddr_add (by omega)]
    omega

theorem State.load_of_fits {program : List Byte} (h : program.length ≤ 3584) :
    s.load program = some ((s.setMem (storeBytes s.mem loadAddr program)).setPc loadAddr) := if_pos h

theorem State.load_of_too_long {program : List Byte} (h : 3584 < program.length) : s.load program = none :=
  if_neg h.not_ge

end Sys2Proof.Machine

namespace Sys2Proof.Proofs

open Sys2Proof Sys2Proof.Machine

/-- Settles O8: the fields of `State.resetWith`, and the font in memory that nothing has written. -/
theorem resetLeavesTheStatedValues : Obligations.ResetLeavesTheStatedValues := by
  refine ⟨fun p v i stack mem => ⟨_, rfl, ?fields⟩, map_read_nil_range, fontData_length⟩
  exact ⟨rfl, rfl, rfl, rfl, rfl, rfl, rfl, FrameBuffer.pixel_clear, rfl, rfl, rfl, rfl⟩

/-- Settles O9: after reset memory has no cells, the stack is empty, the timers are zero, and nothing is under way. -/
theorem resetMeetsTheInvariant : Obligations.ResetMeetsTheInvariant where
  memCanonical := Memory.wf_nil
  spBound := Nat.zero_le 16
  intervalPos := Nat.succ_pos Config.freeIntervalPred
  dtOk := Timer.Ok.zero _
  stOk := Timer.Ok.zero _
  haltOk _ hr := nomatch hr
  waitOk hw := nomatch hw

/-- Settles O47: the bytes are stored one after the other from `LOAD_ADDR`, where all of them fit. -/
theorem loaderCopiesTheProgram : Obligations.LoaderCopiesTheProgram := by
  intro s program hm
  refine ⟨fun h => State.load_of_too_long h, fun h => ⟨_, State.load_of_fits h, rfl, ?canonical, ?bytes⟩⟩
  case canonical => exact storeBytes_wf program loadAddr hm
  case bytes => exact read_storeBytes_loadAddr hm h

end Sys2Proof.Proofs
end

section
/-! The tone over one step (10_state.md R31, 60_exceptions.md R197). -/

namespace Sys2Proof.Machine

variable {i : Instr} {s t : State}

/-- Where `BEEP` has gone up `ST` runs, and where it has gone down `ST` is at zero. -/
def ToneFollows (s t : State) : Prop :=
  (s.beep = false → t.beep = true → t.st.value ≠ 0) ∧ (s.beep = true → t.beep = false → t.st.value = 0)

theorem ToneFollows.of_beep_eq (h : t.beep = s.beep) : ToneFollows s t := by
  refine ⟨fun hs ht => ?_, fun hs ht => ?_⟩ <;> simp [h, hs] at ht

/-- A notice of the timer, but for its last, leaves it running; the last leaves it at zero (R193). -/
theorem Timer.update_notice (t : Timer) (interval e : Nat) :
    (t.update interval e).2 = .quiet ∨
    ((t.update interval e).2 = .elapsed ∧ (t.update interval e).1.value ≠ 0) ∨
    ((t.update interval e).2 = .elapsedStopped ∧ (t.update interval e).1.value = 0) := by
  rcases Timer.update_cases t interval e with ⟨-, hu⟩ | ⟨-, -, hu⟩ | ⟨-, -, hu⟩ | ⟨-, h1, -, hu⟩ <;> rw [hu]
  case inl | inr.inl => exact .inl rfl
  case inr.inr.inl => exact .inr (.inr ⟨rfl, rfl⟩)
  case inr.inr.inr => exact .inr (.inl ⟨rfl, fun hz => h1 (sub_eq_zero.mp hz)⟩)

/-- The end of a completed cycle turns the tone on with Elapsed and off with Stopped (R197). -/
theorem ToneFollows.finishCycle (s : State) : ToneFollows s s.finishCycle := by
  have hbeep : s.finishCycle.beep = (s.st.update s.params.interval s.input.elapsed).2.beep s.beep := by
    rw [State.finishCycle, State.updateTimers_eq_notices]
    rfl
  have hst : s.finishCycle.st = (s.st.update s.params.interval s.input.elapsed).1 := by rw [State.finishCycle_eq]
  rcases Timer.update_notice s.st s.params.interval s.input.elapsed with hn | ⟨hn, hv⟩ | ⟨hn, hv⟩ <;>
    rw [hn] at hbeep
  · exact .of_beep_eq hbeep
  · exact ⟨fun _ _ => hst ▸ hv, fun _ hoff => by simp [hbeep, Notice.beep] at hoff⟩
  · exact ⟨fun _ hon => by simp [hbeep, Notice.beep] at hon, fun _ _ => hst ▸ hv⟩

theorem ToneFollows.endCycle (s : State) : ToneFollows s s.endCycle := by
  unfold State.endCycle
  split
  · exact .of_beep_eq rfl
  · split
    · exact .of_beep_eq rfl
    · exact .finishCycle s

/-- No handler touches `BEEP`. -/
theorem exec_keeps_beep (h : exec i s = .next t) : t.beep = s.beep := by
  cases exec_effect h with
  | loadBlock x bs => rw [State.advance_beep, State.setRegBlock_beep]
  | _ => rfl

end Sys2Proof.Machine

namespace Sys2Proof.Proofs

open Sys2Proof Sys2Proof.Machine

/-- Settles O60: of all a step does, only the end of its cycle touches `BEEP`. -/
theorem toneFollowsTheSoundTimer : Obligations.ToneFollowsTheSoundTimer := by
  intro s t h
  rcases step_cases h with ⟨-, rfl⟩ | ⟨-, -, rfl⟩ | ⟨-, hp, ea, -, rfl⟩ | ⟨-, hp, w, e, -, -, rfl⟩ |
    ⟨-, hp, w, i, u, -, -, hx, rfl⟩
  · exact ToneFollows.of_beep_eq rfl
  · exact ToneFollows.of_beep_eq rfl
  · exact ToneFollows.of_beep_eq (by rw [State.begun_eq s hp]; rfl)
  · exact ToneFollows.of_beep_eq (by rw [State.begun_eq s hp]; rfl)
  · have hu : u.beep = s.beep := by rw [exec_keeps_beep hx, State.begun_eq s hp]
    exact hu ▸ ToneFollows.endCycle u

end Sys2Proof.Proofs
end
